-- ==== Sys2Proof/Word.lean ====
section
/-! DEFINITION. The byte of the cabin bus and the set of cells, with their plainest arithmetic
(spec/09 R183, spec/00 section 4.3). -/
namespace Sys2Proof

/-- One byte of a bus frame (spec/09 R183). -/
abbrev Byte := BitVec 8

/-- A two-byte field of a bus frame, high byte first on the wire (spec/09 R183). -/
abbrev Half := BitVec 16

/-- A set of the sixteen cells of one seat: bit k is set where cell k is in the set (spec/09 R183). -/
abbrev CellSet := BitVec 16

/-- The index of a step record, 0 to 255 (spec/06 R113). -/
abbrev StepIndex := BitVec 8

/-- The byte that carries a number below 256; larger numbers keep their low eight bits. -/
abbrev byteOf (n : Nat) : Byte := BitVec.ofNat 8 n

/-- A count that saturates at its limit (spec/00 section 4.2). -/
abbrev satSucc (limit n : Nat) : Nat := min limit (n + 1)

/-- `clamp` of spec/00 section 4.2, on naturals. -/
abbrev clampNat (lo hi x : Nat) : Nat := max lo (min x hi)

/-- A remaining time one millisecond later; it holds at 0. -/
abbrev lessMs (t : Option Nat) : Option Nat := t.map (· - 1)

end Sys2Proof
end

