-- ==== Sys2Proof/Syntax.lean ====
section
/-! DEFINITION. The names of the manual (seats, masters, regions, zones, fans, cells, requesters), the small
fixed collections indexed by them, and the command type: one constructor per row of spec/opcode_table.json. -/
namespace Sys2Proof

/-! ## Names (spec/00 sections 3, 4.3) -/

inductive Seat where
  | left | right
  deriving DecidableEq, Repr, Inhabited

/-- The other of the two seats. -/
def Seat.other : Seat → Seat
  | .left => .right
  | .right => .left

/-- The three bus masters (spec/00 section 3). -/
inductive Master where
  | gateway | leftPanel | rightPanel
  deriving DecidableEq, Repr, Inhabited

/-- Who last set a setting (spec/01 R3). -/
inductive Origin where
  | gateway | leftPanel | rightPanel | device
  deriving DecidableEq, Repr, Inhabited

def Master.origin : Master → Origin
  | .gateway => .gateway
  | .leftPanel => .leftPanel
  | .rightPanel => .rightPanel

/-- The six regions of the access table (spec/09 R178). -/
inductive Region where
  | leftSeat | rightSeat | store | budget | config | access
  deriving DecidableEq, Repr, Inhabited

def Seat.region : Seat → Region
  | .left => .leftSeat
  | .right => .rightSeat

/-- A right of the access table (spec/09 R178). -/
inductive Right where
  | none | read | write | readWrite
  deriving DecidableEq, Repr, Inhabited

/-- A seat's heating zones in zone order (spec/00 section 4.3). -/
inductive HeatPart where
  | cushion | backrest | neck | legRest | armrest
  deriving DecidableEq, Repr, Inhabited

/-- A seat's fans in fan order (spec/00 section 4.3). -/
inductive FanPart where
  | cushion | backrest
  deriving DecidableEq, Repr, Inhabited

/-- The four holding cells of a seat (spec/00 section 4.3). -/
inductive HoldCell where
  | l0 | l1 | s0 | s1
  deriving DecidableEq, Repr, Inhabited

/-- One of the ten heating zones, as seat and place. -/
structure ZoneId where
  seat : Seat
  part : HeatPart
  deriving DecidableEq, Repr, Inhabited

/-- One of the four fans, as seat and place. -/
structure FanId where
  seat : Seat
  part : FanPart
  deriving DecidableEq, Repr, Inhabited

/-- The four pump requesters (spec/00 section 4.3). -/
inductive Requester where
  | massage (seat : Seat)
  | support (seat : Seat)
  deriving DecidableEq, Repr, Inhabited

def Requester.seat : Requester → Seat
  | .massage s => s
  | .support s => s

def Requester.isSupport : Requester → Bool
  | .massage _ => false
  | .support _ => true

/-- The owners of vent operations (spec/05 R85). -/
inductive VentOwner where
  | requester (r : Requester)
  | relief (seat : Seat)
  | reset
  deriving DecidableEq, Repr, Inhabited

/-- Whether a vent operation of this owner acts on cells of the seat; RESET acts on both (spec/05 R111). -/
def VentOwner.covers : VentOwner → Seat → Bool
  | .requester r, s => r.seat == s
  | .relief t, s => t == s
  | .reset, _ => true

/-! ## Fixed collections -/

/-- One value per seat. -/
structure PerSeat (α : Type) where
  left : α
  right : α
  deriving DecidableEq, Repr, Inhabited

/-- One value per master. -/
structure PerMaster (α : Type) where
  gateway : α
  leftPanel : α
  rightPanel : α
  deriving DecidableEq, Repr, Inhabited

/-- One value per heating place of a seat, or one per level 1 to 5. -/
structure Five (α : Type) where
  cushion : α
  backrest : α
  neck : α
  legRest : α
  armrest : α
  deriving DecidableEq, Repr, Inhabited

/-- One value per fan of a seat. -/
structure Pair (α : Type) where
  cushion : α
  backrest : α
  deriving DecidableEq, Repr, Inhabited

/-- One value per holding cell of a seat. -/
structure Four (α : Type) where
  l0 : α
  l1 : α
  s0 : α
  s1 : α
  deriving DecidableEq, Repr, Inhabited

/-- One right per region (spec/09 R178). -/
structure Rights where
  leftSeat : Right
  rightSeat : Right
  store : Right
  budget : Right
  config : Right
  access : Right
  deriving DecidableEq, Repr, Inhabited

section
variable {α β : Type}

def PerSeat.get (p : PerSeat α) : Seat → α
  | .left => p.left
  | .right => p.right

def PerSeat.set (p : PerSeat α) : Seat → α → PerSeat α
  | .left, v => { p with left := v }
  | .right, v => { p with right := v }

def PerSeat.both (v : α) : PerSeat α := ⟨v, v⟩

def PerMaster.get (p : PerMaster α) : Master → α
  | .gateway => p.gateway
  | .leftPanel => p.leftPanel
  | .rightPanel => p.rightPanel

def PerMaster.set (p : PerMaster α) : Master → α → PerMaster α
  | .gateway, v => { p with gateway := v }
  | .leftPanel, v => { p with leftPanel := v }
  | .rightPanel, v => { p with rightPanel := v }

def Five.get (p : Five α) : HeatPart → α
  | .cushion => p.cushion
  | .backrest => p.backrest
  | .neck => p.neck
  | .legRest => p.legRest
  | .armrest => p.armrest

def Five.set (p : Five α) : HeatPart → α → Five α
  | .cushion, v => { p with cushion := v }
  | .backrest, v => { p with backrest := v }
  | .neck, v => { p with neck := v }
  | .legRest, v => { p with legRest := v }
  | .armrest, v => { p with armrest := v }

def Five.all (v : α) : Five α := ⟨v, v, v, v, v⟩

def Five.map (f : α → β) (p : Five α) : Five β :=
  ⟨f p.cushion, f p.backrest, f p.neck, f p.legRest, f p.armrest⟩

def Five.toList (p : Five α) : List α := [p.cushion, p.backrest, p.neck, p.legRest, p.armrest]

def Pair.get (p : Pair α) : FanPart → α
  | .cushion => p.cushion
  | .backrest => p.backrest

def Pair.set (p : Pair α) : FanPart → α → Pair α
  | .cushion, v => { p with cushion := v }
  | .backrest, v => { p with backrest := v }

def Pair.map (f : α → β) (p : Pair α) : Pair β := ⟨f p.cushion, f p.backrest⟩

def Pair.toList (p : Pair α) : List α := [p.cushion, p.backrest]

def Four.get (p : Four α) : HoldCell → α
  | .l0 => p.l0
  | .l1 => p.l1
  | .s0 => p.s0
  | .s1 => p.s1

def Four.set (p : Four α) : HoldCell → α → Four α
  | .l0, v => { p with l0 := v }
  | .l1, v => { p with l1 := v }
  | .s0, v => { p with s0 := v }
  | .s1, v => { p with s1 := v }

def Four.all (v : α) : Four α := ⟨v, v, v, v⟩

def Four.map (f : α → β) (p : Four α) : Four β := ⟨f p.l0, f p.l1, f p.s0, f p.s1⟩

end

def Rights.get (p : Rights) : Region → Right
  | .leftSeat => p.leftSeat
  | .rightSeat => p.rightSeat
  | .store => p.store
  | .budget => p.budget
  | .config => p.config
  | .access => p.access

def Rights.set (p : Rights) : Region → Right → Rights
  | .leftSeat, v => { p with leftSeat := v }
  | .rightSeat, v => { p with rightSeat := v }
  | .store, v => { p with store := v }
  | .budget, v => { p with budget := v }
  | .config, v => { p with config := v }
  | .access, v => { p with access := v }

/-! ## Step records (spec/06 R113) -/

/-- A loop back to `target`, taken as `count` gives (spec/06 R113). -/
structure Repetition where
  target : StepIndex
  count : Nat
  deriving DecidableEq, Repr, Inhabited

/-- The content of a VALID step record; `next` is `none` for END (spec/06 R113). -/
structure StepFields where
  vent : CellSet
  fill : CellSet
  target : Nat
  dwell : Nat
  next : Option StepIndex
  again : Option Repetition
  deriving DecidableEq, Repr, Inhabited

/-- The fourteen data bytes of WRITE STEP (spec/09 section 9.7.2). -/
structure StepData where
  index : StepIndex
  kind : Byte
  vent : CellSet
  fill : CellSet
  target : Half
  dwell : Byte
  nextMode : Byte
  nextIndex : Byte
  repeatMarker : Byte
  repeatTarget : Byte
  repeatCount : Byte
  deriving DecidableEq, Repr, Inhabited

/-- A command of the block: one constructor per row of spec/opcode_table.json, in the table's order.
A bus command carries the master whose address its transaction uses and its data fields as the frame carries them
(spec/09 R183); an event carries what the wire or the sensor delivers at it. -/
inductive Instr where
  /-- The supply rises: levels of ADS1 ADS0, OCC_L and OCC_R, and the first VSNS sample in 0.1 V. -/
  | powerOn (ads : BitVec 2) (occL occR : Bool) (vsns : Nat)
  /-- A START and its address byte (seven-bit address, then the direction bit). -/
  | transactionStart (addr : Byte)
  | frameByte (b : Byte)
  | busStop
  /-- A repeated START and its address byte. -/
  | repeatedStart (addr : Byte)
  /-- One response byte is clocked out; the master acknowledges it or not. -/
  | responseByte (acked : Bool)
  | transactionTimeout
  | busLowTimeout
  | setZone (m : Master) (zone level : Byte)
  | setFan (m : Master) (fan level : Byte)
  | setSupport (m : Master) (seat cell : Byte) (setpoint : Half)
  | startProgram (m : Master) (seat program minutes : Byte)
  | adjustProgram (m : Master) (seat intensity speed : Byte)
  | pause (m : Master) (seat : Byte)
  | resume (m : Master) (seat : Byte)
  | stopProgram (m : Master) (seat : Byte)
  | resetSeats (m : Master)
  | readSeat (m : Master) (seat part : Byte)
  | setCeiling (m : Master) (ceiling : Half)
  | readBudget (m : Master) (part : Byte)
  | writeStep (m : Master) (data : StepData)
  | readStep (m : Master) (index : Byte)
  | writeProgramEntry (m : Master) (program validity firstStep minutes : Byte)
  | readProgramEntry (m : Master) (program : Byte)
  | writeParameter (m : Master) (number : Byte) (value : Half)
  | readParameter (m : Master) (number : Byte)
  | readDiagnostics (m : Master) (part : Byte)
  | clearDiagnostics (m : Master)
  | writeAccess (m : Master) (master region right : Byte)
  | readAccess (m : Master)
  | setNoticeMask (m : Master) (mask : Half)
  | takeNotice (m : Master)
  | readNotices (m : Master)
  | readResult (m : Master)
  /-- The raw level of OCC_L or OCC_R changes to `occupied`. -/
  | occupancyInputChange (seat : Seat) (occupied : Bool)
  | debounceExpiry (seat : Seat)
  | vacancyDelayExpiry (seat : Seat)
  | clearTimeExpiry (seat : Seat)
  /-- The ten zone readings, and the interval's ITOT readings as their sum and number. -/
  | scanCompletion (readings : PerSeat (Five Int)) (itotSum itotCount : Nat)
  | zoneFrameStart (zone : ZoneId)
  /-- The on-window ends; `current` is the element current measured over it. -/
  | onWindowEnd (zone : ZoneId) (current : Nat)
  /-- The element current compared while the gate is on. -/
  | overcurrent (zone : ZoneId) (current : Nat)
  | stepDown (zone : ZoneId)
  | tachPulse (fan : FanId)
  | fanStall (fan : FanId)
  | retryTimerExpiry (fan : FanId)
  | cleanRunComplete (fan : FanId)
  | ceilingRefreshExpiry
  /-- A VSNS sample in 0.1 V. -/
  | supplySample (reading : Nat)
  /-- The samples of MP_L and MP_R in 0.1 kPa. -/
  | manifoldSample (sampleL sampleR : Int)
  | selectorArrival
  | riseWindowExpiry
  | maximumFillExpiry
  | ventEnd (owner : VentOwner)
  | cellBitError (index : StepIndex)
  | dwellEnd (seat : Seat)
  | programTimerExpiry (seat : Seat)
  | supportRefreshExpiry (seat : Seat)
  | lossOfSupply
  deriving DecidableEq, Repr

end Sys2Proof
end

