-- ==== Sys2Proof/Decode.lean ====
section
/-! DEFINITION. The command that a word spells by the bits of spec/opcode_table.json. The table gives bits to no row: the
block takes its commands as bus frames (Machine/Bus.lean) and as events, so no word spells one. -/
namespace Sys2Proof

/-- No row of the table has bits (notes/assumptions/37.md). -/
def decodeTableWord (_nbits _w : Nat) : Option Instr := none

end Sys2Proof
end

