-- ==== Sys2Proof/Machine/State.lean ====
section
/-! DEFINITION. The state of the ZK-614, block by block in the order of spec/00 section 2, and its value right after
power-on. All of it is plain data. Times are held in milliseconds. -/
namespace Sys2Proof.Machine

/-! ## Result codes and the bus interface (spec/00 section 4.5, spec/09) -/

/-- The result codes in the order of spec/00 section 4.5. -/
inductive ResultCode where
  | ok | clamped | denied | unknown | length | check | badField | readOnly | busy | vacant | uncorrectable
  deriving DecidableEq, Repr, Inhabited

/-- A master's last-result record (spec/09 R175). -/
structure LastResult where
  result : ResultCode
  command : Option Byte
  seat : Option Seat
  deriving DecidableEq, Repr, Inhabited

inductive BusPhase where
  | idle | receiving | sending
  deriving DecidableEq, Repr, Inhabited

/-- The bus-low timer while a line may be low, and the limit it was started with (spec/09 R169, R177). -/
structure BusLow where
  time : Nat
  limit : Nat
  deriving DecidableEq, Repr, Inhabited

/-- The transaction record (spec/09 R169), with what the part last put on the wire. -/
structure BusRecord where
  phase : BusPhase
  master : Option Master
  received : List Byte
  overflow : Bool
  response : List Byte
  sent : Nat
  /-- SDA is released for the rest of the response: the master left a byte unacknowledged (R172). -/
  released : Bool
  /-- Time since the START that opened the transaction, in ms (R176). -/
  time : Nat
  /-- Absent while SCL and SDA are released (R177; notes/assumptions/13.md). -/
  low : Option BusLow
  /-- Whether the part acknowledged the latest address or frame byte (R168, R170). -/
  ack : Bool
  /-- The byte the part last clocked out, 0xFF while it leaves SDA released (R172). -/
  sda : Byte
  deriving DecidableEq, Repr, Inhabited

/-- IDLE with every other field absent (spec/09 R169). -/
def BusRecord.idle : BusRecord :=
  { phase := .idle, master := none, received := [], overflow := false, response := [], sent := 0,
    released := false, time := 0, low := none, ack := false, sda := 0xFF }

/-! ## Seat records (spec/01) -/

/-- A setting, always held with its origin (spec/01 section 1.1). -/
structure Setting where
  value : Nat
  origin : Origin
  deriving DecidableEq, Repr, Inhabited

inductive Occupancy where
  | occupied | vacating | standby | empty
  deriving DecidableEq, Repr, Inhabited

/-- The occupancy timer with its remaining ms (spec/01 R1). -/
inductive OccTimer where
  | stopped
  | vacancy (left : Nat)
  | clear (left : Nat)
  deriving DecidableEq, Repr, Inhabited

/-- A seat record (spec/01 R1); the cursor record and the override have homes of their own. -/
structure SeatRecord where
  occupancy : Occupancy
  /-- The debounced occupancy: true is OCCUPIED. -/
  debounced : Bool
  /-- The raw level of the seat's occupancy input. -/
  rawLevel : Bool
  debounceTimer : Option Nat
  timer : OccTimer
  levels : Five Setting
  fanLevels : Pair Setting
  setpoints : Four Setting
  underfill : Nat
  deriving DecidableEq, Repr, Inhabited

/-! ## Heating zones (spec/02 R20) -/

inductive ZoneState where
  | off | heating | limit | degraded | fault | standby
  deriving DecidableEq, Repr, Inhabited

/-- A zone channel (spec/02 R20), with the gate of R36. -/
structure ZoneChannel where
  /-- The measured temperature; `none` is INVALID. -/
  temp : Option Int
  streak : Nat
  request : Nat
  grant : Nat
  state : ZoneState
  latch : Bool
  openLoad : Nat
  window : Nat
  minutes : Nat
  /-- Milliseconds of the step-down minute in progress. -/
  minuteMs : Nat
  faults : Nat
  /-- The gate output HG of the zone. -/
  gate : Bool
  /-- Slots the gate has been on in the present window (R37). -/
  onSlots : Nat
  /-- An on-window of the present frame has not been judged yet (R31). -/
  unjudged : Bool
  /-- A window that ended with the frame before this one has not been judged yet (R31, R36). -/
  carried : Bool
  deriving DecidableEq, Repr, Inhabited

/-! ## Fans (spec/03 R45) -/

inductive FanState where
  | off | run | retryWait | fault
  deriving DecidableEq, Repr, Inhabited

/-- A fan channel (spec/03 R45); its output is driven while the granted level is 1 or more (R48). -/
structure FanChannel where
  state : FanState
  demand : Nat
  granted : Nat
  tachWatch : Option Nat
  retryTimer : Option Nat
  retries : Nat
  cleanRun : Nat
  /-- THE MODEL'S OWN: the retry timer ran out at this moment, and the output comes on as time passes (notes/assumptions/40.md). -/
  restarted : Bool
  deriving DecidableEq, Repr, Inhabited

/-! ## Budget allocator and supply monitor (spec/04 R57) -/

inductive PassStatus where
  | full | limited | starved
  deriving DecidableEq, Repr, Inhabited

/-- The allocation result (spec/04 R57). -/
structure Allocation where
  status : PassStatus
  demandSeen : Bool
  permitted : Bool
  fanCap : Nat
  fanGrants : PerSeat (Pair Nat)
  dutyCap : Nat
  grants : PerSeat (Five Nat)
  heater : Nat
  total : Nat
  deriving DecidableEq, Repr, Inhabited

/-- The budget allocator (spec/04 R57). -/
structure Budget where
  ceiling : Nat
  refresh : Option Nat
  derate : Nat
  overdrawRun : Nat
  peak : Nat
  /-- THE MODEL'S OWN: the peak by which a scan of this moment still takes the derate step that a CLEAR DIAGNOSTICS of this moment
  came before; none once time passes (notes/assumptions/47.md). -/
  stepPeak : Option Nat
  cEff : Nat
  result : Allocation
  deriving DecidableEq, Repr, Inhabited

inductive Band where
  | normal | shed | stop
  deriving DecidableEq, Repr, Inhabited

/-- The supply monitor (spec/04 R57, R64); the running mean of ITOT is its readings' sum and number. -/
structure SupplyMonitor where
  band : Band
  reading : Nat
  measured : Nat
  itotSum : Nat
  itotCount : Nat
  deriving DecidableEq, Repr, Inhabited

/-! ## Pneumatic controller (spec/05 R85) -/

inductive SelPos where
  | neutral | left | right
  deriving DecidableEq, Repr, Inhabited

/-- The selector position of a seat. -/
def seatPos : Seat → SelPos
  | .left => .left
  | .right => .right

/-- The selector valve (spec/05 R88). -/
inductive Selector where
  | atRest (pos : SelPos)
  | moving (target : SelPos) (left : Nat)
  deriving DecidableEq, Repr, Inhabited

/-- A queue entry (spec/05 R94); its seat is its requester's. -/
structure Entry where
  requester : Requester
  cells : CellSet
  target : Nat
  resumed : Bool
  deriving DecidableEq, Repr, Inhabited

/-- The holder's record (spec/05 R85): `p0` is absent until FILLING begins. -/
structure Holder where
  entry : Entry
  p0 : Option Nat
  riseTimer : Option Nat
  fillTimer : Option Nat
  /-- Time since FILLING began (R112). -/
  elapsed : Nat
  deriving DecidableEq, Repr, Inhabited

/-- A running vent operation (spec/05 R91); its seat is its owner's, both seats for RESET. -/
structure VentOp where
  owner : VentOwner
  cells : CellSet
  left : Nat
  deriving DecidableEq, Repr, Inhabited

inductive FillState where
  | idle | switching | filling
  deriving DecidableEq, Repr, Inhabited

/-- The pneumatic controller (spec/05 R85). `vents` stand in the order of their owners, one per owner. -/
structure Pneumatic where
  holder : Option Holder
  compressor : Bool
  selector : Selector
  manifold : PerSeat Nat
  vents : List VentOp
  queue : List Entry
  rotation : Nat
  lastSeat : Option Seat
  /-- Parking NONE is in force: a write of NONE waits for a release (R110). -/
  parkNone : Bool
  deriving DecidableEq, Repr, Inhabited

/-- How a fill ended (spec/05 section 5.5.2), with the final pressure where one is reported. -/
inductive FillEnd where
  /-- DONE; `atStart` says that the start check of R102 ended the fill. -/
  | done (atStart : Bool) (pressure : Nat)
  | leak (pressure : Nat)
  | underfill (pressure : Nat)
  | overpressure (pressure : Nat)
  | suspend
  | withdrawn
  deriving DecidableEq, Repr, Inhabited

/-- A report of the pneumatic controller to a requester (spec/07 R134). -/
inductive Report where
  | granted (who : Requester)
  | ended (who : Requester) (how : FillEnd)
  | ventComplete (who : Requester)
  deriving DecidableEq, Repr, Inhabited

/-! ## Pattern store (spec/06) -/

/-- The content of a record: `none` is BLANK (spec/06 R113). -/
abbrev Content := Option StepFields

/-- A RAM record with its error weight (spec/06 R118). -/
structure RamRecord where
  content : Content
  weight : Nat
  deriving DecidableEq, Repr, Inhabited

/-- A directory entry (spec/06 R125). -/
structure DirEntry where
  valid : Bool
  first : StepIndex
  minutes : Nat
  deriving DecidableEq, Repr, Inhabited

/-- The error log (spec/06 R129). -/
structure ErrorLog where
  count : Nat
  firstCorrectable : Option StepIndex
  firstUncorrectable : Option StepIndex
  flag : Bool
  reported : Bool
  deriving DecidableEq, Repr, Inhabited

/-- The error log as power-on and CLEAR DIAGNOSTICS leave it (spec/06 R129). -/
def ErrorLog.clear : ErrorLog :=
  { count := 0, firstCorrectable := none, firstUncorrectable := none, flag := false, reported := false }

/-! ## Massage cursors (spec/07 R132) -/

inductive CursorState where
  | idle | running | paused | ending | fault
  deriving DecidableEq, Repr, Inhabited

inductive Phase where
  | none | vent | fillWait | filling | dwell
  deriving DecidableEq, Repr, Inhabited

inductive FaultCode where
  | none | store | blank | leak | overpressure | nest | loop
  deriving DecidableEq, Repr, Inhabited

inductive EndCause where
  | none | ended | expired | stopped | standby
  deriving DecidableEq, Repr, Inhabited

/-- The repeat counter while it is not idle: its value and its owner step (spec/07 R145). -/
structure RepeatCounter where
  value : Nat
  owner : StepIndex
  deriving DecidableEq, Repr, Inhabited

/-- The cursor record (spec/07 R132). -/
structure Cursor where
  state : CursorState
  phase : Phase
  program : Option Nat
  step : Option StepIndex
  copy : Option StepFields
  effTarget : Nat
  effDwell : Nat
  counter : Option RepeatCounter
  hops : Nat
  /-- Program time remaining, in whole seconds. -/
  seconds : Nat
  /-- Milliseconds run of the second in progress. -/
  secondMs : Nat
  phaseMs : Nat
  intensity : Nat
  speed : Nat
  origin : Origin
  fault : FaultCode
  cause : EndCause
  deriving DecidableEq, Repr, Inhabited

/-! ## Support regulators (spec/08 R159) -/

inductive Need where
  | held | fill | vent
  deriving DecidableEq, Repr, Inhabited

inductive Service where
  | free
  | waiting (cell : HoldCell)
  | filling (cell : HoldCell)
  deriving DecidableEq, Repr, Inhabited

/-- A FILLING fill that a SET SUPPORT taken at this moment has ended: what its fault, taken after it, is judged by (spec/01 R7). -/
structure CutFill where
  target : Nat
  p0 : Nat
  /-- The rise window of the fill runs out at this moment. -/
  riseDue : Bool
  deriving DecidableEq, Repr, Inhabited

/-- A support regulator (spec/08 R159); its venting set is the cells whose need is VENT. -/
structure Regulator where
  needs : Four Need
  marks : Four Bool
  service : Service
  refresh : Nat
  /-- THE MODEL'S OWN: the fill of each cell ended by a SET SUPPORT of this moment; none once time passes
  (notes/assumptions/38.md). -/
  cuts : Four (Option CutFill)
  deriving DecidableEq, Repr, Inhabited

/-! ## Notices (spec/10) -/

/-- The notice kinds in the order of their priorities (spec/10 R184). -/
inductive NoticeKind where
  | retention | supply | overdraw | lease | heatFault | fanFault | airFault | storeError | changed | stepDown
  | programEnd | occupancy | budgetLimited
  deriving DecidableEq, Repr, Inhabited

inductive HeatCause where
  | sensor | openLoad | overcurrent
  deriving DecidableEq, Repr, Inhabited

/-- The outcomes that fault a holding cell (spec/08 R164). -/
inductive CellOutcome where
  | leak | overpressure
  deriving DecidableEq, Repr, Inhabited

/-- What a CHANGED notice names (spec/01 R8). -/
inductive Changed where
  | zone (z : ZoneId)
  | fan (f : FanId)
  | cell (c : HoldCell)
  | cursor
  | wholeSeat
  deriving DecidableEq, Repr, Inhabited

/-- The detail of a raise (spec/10 R184). -/
inductive Detail where
  | nothing
  | supply (now was : Band)
  | overdraw (derate measured peak : Nat)
  | lease (ceiling : Nat)
  | heatFault (zone : ZoneId) (cause : HeatCause)
  | fanFault (fan : FanId)
  | massageFault (code : FaultCode) (step : StepIndex)
  | supportFault (cell : HoldCell) (outcome : CellOutcome)
  | storeError (correctable : Bool) (index : StepIndex)
  | changed (what : Changed)
  | stepDown (zone : ZoneId) (level : Nat)
  | programEnd (program : Nat) (cause : EndCause)
  | occupancy (now : Occupancy)
  | limited (heaterCap pumpRefused : Bool) (dutyCap : Nat)
  deriving DecidableEq, Repr, Inhabited

/-- A pending pair with its detail (spec/10 R185). -/
structure Notice where
  kind : NoticeKind
  seat : Option Seat
  detail : Detail
  deriving DecidableEq, Repr, Inhabited

/-- A master's notices (spec/10 section 10.2, 10.3): the pending set in the order TAKE NOTICE takes it, the mask, and the
attention line (`true` is driven low). -/
structure NoticeBox where
  pending : List Notice
  mask : Half
  line : Bool
  deriving DecidableEq, Repr, Inhabited

/-! ## Stops -/

/-- The faults of a step. The manual stops the part at no command: every command it describes is taken, refused with a
result code, or without effect. -/
inductive Fault where
  /-- Raised by no meaning. Kept so that a stop could be named without changing the type; safe, since nothing reaches it. -/
  | outsideTheManual
  deriving DecidableEq, Repr

/-- The refusals of a step. -/
inductive Refusal where
  /-- Raised by exec's arm of a command that has no meaning yet; no arm raises it now. Safe. -/
  | notModelled (mnemonic : String)
  deriving DecidableEq, Repr

/-! ## The state -/

/-- Everything the part holds: the state that the manual gives it. -/
structure Part where
  /-- The supply is above the loss level (spec/04 R62). -/
  powered : Bool
  /-- The first temperature scan since power-on has completed: the addresses are acknowledged (spec/09 R168). -/
  scanned : Bool
  /-- ADS1 and ADS0 as sampled at power-on (spec/09 R168). -/
  ads : BitVec 2
  bus : BusRecord
  results : PerMaster LastResult
  access : PerMaster Rights
  /-- The parameters, by number; a number not listed holds its default (spec/09 section 9.6). -/
  params : List (Nat × Nat)
  seats : PerSeat SeatRecord
  zones : PerSeat (Five ZoneChannel)
  /-- The heater frame counter's slot and the milliseconds of the slot in progress (spec/02 R36). -/
  frameSlot : Nat
  frameMs : Nat
  /-- Time left to the next scan completion (spec/02 R22). -/
  scanTimer : Nat
  fans : PerSeat (Pair FanChannel)
  budget : Budget
  supply : SupplyMonitor
  /-- Time left to the next VSNS sample (spec/04 R62) and manifold sample (spec/05 R87). -/
  supplyTimer : Nat
  manifoldTimer : Nat
  pneu : Pneumatic
  /-- The RAM records by index; an index not listed is BLANK at weight 0 (spec/06 R114). -/
  ram : List (Nat × RamRecord)
  /-- Directory entries 4 to 15 by number; one not listed is as at power-on (spec/06 R125). -/
  directory : List (Nat × DirEntry)
  log : ErrorLog
  cursors : PerSeat Cursor
  regulators : PerSeat Regulator
  notices : PerMaster NoticeBox
  deriving DecidableEq, Repr, Inhabited

/-- How the release of a grant selects (spec/05 R107, R109; notes/assumptions/43.md). -/
inductive Releases where
  /-- As R109 says. -/
  | select
  /-- Within a command: a release of it has granted an entry. -/
  | selected
  /-- Within a command: its first release, and the arbiter from then on, will select no holder. -/
  | armed
  /-- The arbiter selects no holder. -/
  | shut
  /-- Between commands: a release of this moment has granted an entry, and this is the part as it would stand had the release
  selected no holder. -/
  | apart (p : Part)
  deriving DecidableEq, Repr, Inhabited

/-- The part, and what the model holds beside it. -/
structure State extends Part where
  /-- THE MODEL'S OWN: reports made and not yet taken; empty between commands (notes/assumptions/24.md). -/
  reports : List Report
  /-- THE MODEL'S OWN: how a release selects, with the part as a refusing pass of this moment will find it
  (notes/assumptions/43.md). -/
  releases : Releases
  /-- THE MODEL'S OWN: the commands that are waiting, first in first out. -/
  pending : List Instr
  deriving DecidableEq, Repr, Inhabited

/-! ## Power-on values -/

/-- A setting at power-on (spec/01 R2). -/
def Setting.zero : Setting := { value := 0, origin := .device }

/-- spec/01 R2. -/
def SeatRecord.powerOn (level : Bool) : SeatRecord :=
  { occupancy := .empty, debounced := false, rawLevel := level, debounceTimer := some 2000, timer := .stopped,
    levels := Five.all .zero, fanLevels := ⟨.zero, .zero⟩, setpoints := Four.all .zero, underfill := 0 }

/-- spec/02 R21. -/
def ZoneChannel.powerOn : ZoneChannel :=
  { temp := none, streak := 0, request := 0, grant := 0, state := .standby, latch := false, openLoad := 0, window := 0,
    minutes := 0, minuteMs := 0, faults := 0, gate := false, onSlots := 0, unjudged := false,
    carried := false }

/-- spec/03 R46. -/
def FanChannel.powerOn : FanChannel :=
  { state := .off, demand := 0, granted := 0, tachWatch := none, retryTimer := none, retries := 0, cleanRun := 0,
    restarted := false }

/-- The result of the power-on pass with the ceiling above the overhead (spec/04 R58). -/
def Allocation.powerOn : Allocation :=
  { status := .full, demandSeen := false, permitted := false, fanCap := 3, fanGrants := .both ⟨0, 0⟩, dutyCap := 100,
    grants := .both (Five.all 0), heater := 0, total := 8 }

/-- spec/05 R86. -/
def Pneumatic.powerOn : Pneumatic :=
  { holder := none, compressor := false, selector := .moving .neutral 250, manifold := .both 0, vents := [], queue := [],
    rotation := 0, lastSeat := none, parkNone := false }

/-- spec/07 R133. -/
def Cursor.powerOn : Cursor :=
  { state := .idle, phase := .none, program := none, step := none, copy := none, effTarget := 0, effDwell := 0,
    counter := none, hops := 0, seconds := 0, secondMs := 0, phaseMs := 0, intensity := 3, speed := 2, origin := .device,
    fault := .none, cause := .none }

/-- spec/08 R159. -/
def Regulator.powerOn : Regulator :=
  { needs := Four.all .held, marks := Four.all false, service := .free, refresh := 120000, cuts := Four.all none }

/-- spec/09 R178. -/
def rightsAtPowerOn : Master → Rights
  | .gateway => ⟨.readWrite, .readWrite, .readWrite, .readWrite, .readWrite, .readWrite⟩
  | .leftPanel => ⟨.readWrite, .read, .read, .read, .none, .read⟩
  | .rightPanel => ⟨.read, .readWrite, .read, .read, .none, .read⟩

/-- spec/09 R175. -/
def LastResult.powerOn : LastResult := { result := .ok, command := none, seat := none }

/-- spec/10 R190. -/
def NoticeBox.powerOn : Master → NoticeBox
  | .gateway => { pending := [⟨.retention, none, .nothing⟩], mask := 0, line := true }
  | _ => { pending := [], mask := 0, line := false }

/-- The part right after power-on (spec/01 R2, 02 R21, 03 R46, 04 R58, 05 R86, 06 R114 R125 R129, 07 R133, 08 R159,
09 R168 R169 R175 R178, 10 R190). DESIGN CHOICE, unsafe (notes/assumptions/6.md): the pins read ADS1 ADS0 = 00, both seats
vacant and a first supply sample of 13.8 V, which the manual leaves to the vehicle. -/
def State.reset : State :=
  { powered := true, scanned := false, ads := 0, bus := .idle,
    results := ⟨.powerOn, .powerOn, .powerOn⟩,
    access := ⟨rightsAtPowerOn .gateway, rightsAtPowerOn .leftPanel, rightsAtPowerOn .rightPanel⟩,
    params := [],
    seats := .both (.powerOn false), zones := .both (Five.all .powerOn),
    frameSlot := 0, frameMs := 0, scanTimer := 1000,
    fans := .both ⟨.powerOn, .powerOn⟩,
    budget := { ceiling := 120, refresh := none, derate := 0, overdrawRun := 0, peak := 8, stepPeak := none, cEff := 120, result := .powerOn },
    supply := { band := .normal, reading := 138, measured := 0, itotSum := 0, itotCount := 0 },
    supplyTimer := 10, manifoldTimer := 50,
    pneu := .powerOn, ram := [], directory := [], log := .clear,
    cursors := .both .powerOn, regulators := .both .powerOn,
    notices := ⟨.powerOn .gateway, .powerOn .leftPanel, .powerOn .rightPanel⟩,
    reports := [], releases := .select, pending := [] }

end Sys2Proof.Machine
end

