-- ==== Sys2Proof/Machine/Ops.lean ====
section
/-! DEFINITION. The named operations every block shares: the canonical tables behind the pattern store, the directory and
the parameters; reads and updates of one seat, zone, fan, cell, cursor or regulator; rights; and the raise of a notice. -/
namespace Sys2Proof.Machine

/-! ## Tables in canonical form: keys strictly rising, no entry equal to what an unlisted key reads as -/

section
variable {α : Type}

/-- What the table holds at a key. -/
def Table.get (dflt : Nat → α) : List (Nat × α) → Nat → α
  | [], k => dflt k
  | (k', v) :: t, k => if k = k' then v else Table.get dflt t k

/-- The table with one key's value replaced, in canonical form again. -/
def Table.put [DecidableEq α] (dflt : Nat → α) : List (Nat × α) → Nat → α → List (Nat × α)
  | [], k, v => if v = dflt k then [] else [(k, v)]
  | (k', v') :: t, k, v =>
    if k < k' then (if v = dflt k then (k', v') :: t else (k, v) :: (k', v') :: t)
    else if k = k' then (if v = dflt k then t else (k, v) :: t)
    else (k', v') :: Table.put dflt t k v

/-- The canonical form, every key within the bounds. -/
def Table.canonical [DecidableEq α] (dflt : Nat → α) (lo hi : Nat) : List (Nat × α) → Bool
  | [] => true
  | (k, v) :: t => decide (lo ≤ k) && decide (k ≤ hi) && decide (v ≠ dflt k) && Table.canonical dflt (k + 1) hi t

end

/-- An unlisted RAM record is BLANK with a correct check code (spec/06 R114). -/
def blankRecord (_ : Nat) : RamRecord := { content := none, weight := 0 }

/-- An unlisted directory entry is as at power-on (spec/06 R125). -/
def unsetEntry (_ : Nat) : DirEntry := { valid := false, first := 64, minutes := 20 }

/-- The pattern store's RAM is in canonical form: RAM indices only, rising, nothing listed that reads the same unlisted. -/
def Memory.wf (m : List (Nat × RamRecord)) : Bool := Table.canonical blankRecord 64 255 m

/-- The directory's writable entries are in canonical form. -/
def Directory.wf (d : List (Nat × DirEntry)) : Bool := Table.canonical unsetEntry 4 15 d

/-! ## One part of the state -/

def State.seat (s : State) (x : Seat) : SeatRecord := s.seats.get x

def State.modSeat (s : State) (x : Seat) (f : SeatRecord → SeatRecord) : State :=
  { s with seats := s.seats.set x (f (s.seat x)) }

def State.zone (s : State) (z : ZoneId) : ZoneChannel := (s.zones.get z.seat).get z.part

def State.setZone (s : State) (z : ZoneId) (c : ZoneChannel) : State :=
  { s with zones := s.zones.set z.seat ((s.zones.get z.seat).set z.part c) }

def State.fan (s : State) (f : FanId) : FanChannel := (s.fans.get f.seat).get f.part

def State.setFan (s : State) (f : FanId) (c : FanChannel) : State :=
  { s with fans := s.fans.set f.seat ((s.fans.get f.seat).set f.part c) }

def State.cursor (s : State) (x : Seat) : Cursor := s.cursors.get x

def State.modCursor (s : State) (x : Seat) (f : Cursor → Cursor) : State :=
  { s with cursors := s.cursors.set x (f (s.cursor x)) }

def State.regulator (s : State) (x : Seat) : Regulator := s.regulators.get x

def State.modRegulator (s : State) (x : Seat) (f : Regulator → Regulator) : State :=
  { s with regulators := s.regulators.set x (f (s.regulator x)) }

def State.modPneu (s : State) (f : Pneumatic → Pneumatic) : State := { s with pneu := f s.pneu }

def State.modBudget (s : State) (f : Budget → Budget) : State := { s with budget := f s.budget }

/-- The stored level of a zone, with its origin (spec/01 R1). -/
def State.level (s : State) (z : ZoneId) : Setting := (s.seat z.seat).levels.get z.part

def State.setLevel (s : State) (z : ZoneId) (v : Setting) : State :=
  s.modSeat z.seat fun r => { r with levels := r.levels.set z.part v }

/-- The stored level of a fan, with its origin (spec/01 R1). -/
def State.fanLevel (s : State) (f : FanId) : Setting := (s.seat f.seat).fanLevels.get f.part

def State.setFanLevel (s : State) (f : FanId) (v : Setting) : State :=
  s.modSeat f.seat fun r => { r with fanLevels := r.fanLevels.set f.part v }

/-- The setpoint of a holding cell, with its origin (spec/01 R1). -/
def State.setpoint (s : State) (x : Seat) (c : HoldCell) : Setting := (s.seat x).setpoints.get c

def State.setSetpoint (s : State) (x : Seat) (c : HoldCell) (v : Setting) : State :=
  s.modSeat x fun r => { r with setpoints := r.setpoints.set c v }

/-- Whether the seat's loads may run: OCCUPIED or VACATING (spec/01 R11, R12). -/
def Occupancy.active : Occupancy → Bool
  | .occupied | .vacating => true
  | .standby | .empty => false

def State.active (s : State) (x : Seat) : Bool := (s.seat x).occupancy.active

/-- The zones in zone order (spec/00 section 4.3). -/
def heatParts : List HeatPart := [.cushion, .backrest, .neck, .legRest, .armrest]

def seatZones (x : Seat) : List ZoneId := heatParts.map (ZoneId.mk x)

def allZones : List ZoneId := seatZones .left ++ seatZones .right

def seatFans (x : Seat) : List FanId := [⟨x, .cushion⟩, ⟨x, .backrest⟩]

def allFans : List FanId := seatFans .left ++ seatFans .right

def holdCells : List HoldCell := [.l0, .l1, .s0, .s1]

def allMasters : List Master := [.gateway, .leftPanel, .rightPanel]

/-! ## Rights (spec/09 R178) -/

def rightReads : Right → Bool
  | .read | .readWrite => true
  | .none | .write => false

def rightWrites : Right → Bool
  | .write | .readWrite => true
  | .none | .read => false

def State.mayRead (s : State) (m : Master) (r : Region) : Bool := rightReads ((s.access.get m).get r)

def State.mayWrite (s : State) (m : Master) (r : Region) : Bool := rightWrites ((s.access.get m).get r)

/-! ## Notices (spec/10) -/

/-- The place of a kind among the priorities, from 0 (spec/10 R184); also its bit in a mask (R186). -/
def NoticeKind.bit : NoticeKind → Nat
  | .retention => 0
  | .supply => 1
  | .overdraw => 2
  | .lease => 3
  | .heatFault => 4
  | .fanFault => 5
  | .airFault => 6
  | .storeError => 7
  | .changed => 8
  | .stepDown => 9
  | .programEnd => 10
  | .occupancy => 11
  | .budgetLimited => 12

/-- The kinds that name a seat (spec/10 R184). -/
def NoticeKind.isSeatKind : NoticeKind → Bool
  | .heatFault | .fanFault | .airFault | .changed | .stepDown | .programEnd | .occupancy => true
  | .retention | .supply | .overdraw | .lease | .storeError | .budgetLimited => false

/-- LEFT before RIGHT; a device-wide kind has one pair only. -/
def seatRank : Option Seat → Nat
  | some .left => 0
  | some .right => 1
  | none => 2

/-- The order in which TAKE NOTICE takes pairs: by priority, LEFT before RIGHT (spec/10 R188). -/
def Notice.rank (n : Notice) : Nat := 3 * n.kind.bit + seatRank n.seat

/-- A raise into a pending set: a pair already there takes the new detail, otherwise it is added (spec/10 R185). -/
def insertNotice (n : Notice) : List Notice → List Notice
  | [] => [n]
  | p :: t =>
    if n.rank < p.rank then n :: p :: t
    else if n.rank = p.rank then n :: t
    else p :: insertNotice n t

def masked (mask : Half) (k : NoticeKind) : Bool := mask.getLsbD k.bit

/-- A pending set with its line re-judged: low while an unmasked pair is pending (spec/10 R187). -/
def NoticeBox.judged (b : NoticeBox) : NoticeBox :=
  { b with line := b.pending.any fun n => !masked b.mask n.kind }

def NoticeBox.receive (n : Notice) (b : NoticeBox) : NoticeBox :=
  NoticeBox.judged { b with pending := insertNotice n b.pending }

def State.modNotices (s : State) (m : Master) (f : NoticeBox → NoticeBox) : State :=
  { s with notices := s.notices.set m (f (s.notices.get m)) }

/-- A raise to one master, where it is a recipient. -/
def State.deliver (s : State) (n : Notice) (reached : Bool) (m : Master) : State :=
  if reached then s.modNotices m (NoticeBox.receive n) else s

/-- The raise of a device-wide kind, to the GATEWAY (spec/10 R184). -/
def raiseDevice (k : NoticeKind) (d : Detail) (s : State) : State :=
  s.deliver ⟨k, none, d⟩ true .gateway

/-- The raise of a seat kind to the seat readers of the moment, less the master it leaves out (spec/10 R184). -/
def raiseSeat (k : NoticeKind) (x : Seat) (d : Detail) (except : Option Master) (s : State) : State :=
  let reached (m : Master) : Bool := s.mayRead m x.region && (except != some m)
  ((s.deliver ⟨k, some x, d⟩ (reached .gateway) .gateway).deliver ⟨k, some x, d⟩ (reached .leftPanel) .leftPanel).deliver
    ⟨k, some x, d⟩ (reached .rightPanel) .rightPanel

/-- CHANGED for an accepted command of master `m` (spec/01 R8). -/
def raiseChanged (m : Master) (x : Seat) (what : Changed) (s : State) : State :=
  raiseSeat .changed x (.changed what) (some m) s

/-- RESET SEATS at one pending set: the seat kinds leave it (spec/10 R190). -/
def NoticeBox.dropSeatKinds (b : NoticeBox) : NoticeBox :=
  NoticeBox.judged { b with pending := b.pending.filter fun n => !n.kind.isSeatKind }

/-! ## Reports to the requesters (spec/07 R134) -/

def State.report (s : State) (r : Report) : State := { s with reports := s.reports ++ [r] }

end Sys2Proof.Machine
end

