-- ==== Sys2Proof/Machine/Operands.lean ====
section
/-! DEFINITION. Every operand form of a command: what a carried code names, how a comfort value is brought into range,
and the numbered parameters with their ranges and defaults (spec/00 sections 4.3, 4.5; spec/09 R181, R183, section 9.6.1). -/
namespace Sys2Proof.Machine

/-! ## What a code names (spec/09 R183, spec/00 section 4.3) -/

def seatOfCode : Nat → Option Seat
  | 0 => some .left
  | 1 => some .right
  | _ => none

def seatCode : Seat → Nat
  | .left => 0
  | .right => 1

def heatPartOfCode : Nat → Option HeatPart
  | 0 => some .cushion
  | 1 => some .backrest
  | 2 => some .neck
  | 3 => some .legRest
  | 4 => some .armrest
  | _ => none

def heatPartCode : HeatPart → Nat
  | .cushion => 0
  | .backrest => 1
  | .neck => 2
  | .legRest => 3
  | .armrest => 4

/-- Zones 0 to 4 are the LEFT seat's, 5 to 9 the RIGHT seat's. -/
def zoneOfCode (n : Nat) : Option ZoneId :=
  if n < 5 then (heatPartOfCode n).map (ZoneId.mk .left) else (heatPartOfCode (n - 5)).map (ZoneId.mk .right)

def zoneNumber (z : ZoneId) : Nat := 5 * seatCode z.seat + heatPartCode z.part

def fanOfCode : Nat → Option FanId
  | 0 => some ⟨.left, .cushion⟩
  | 1 => some ⟨.left, .backrest⟩
  | 2 => some ⟨.right, .cushion⟩
  | 3 => some ⟨.right, .backrest⟩
  | _ => none

def fanNumber : FanId → Nat
  | ⟨.left, .cushion⟩ => 0
  | ⟨.left, .backrest⟩ => 1
  | ⟨.right, .cushion⟩ => 2
  | ⟨.right, .backrest⟩ => 3

def cellOfCode : Nat → Option HoldCell
  | 12 => some .l0
  | 13 => some .l1
  | 14 => some .s0
  | 15 => some .s1
  | _ => none

def cellNumber : HoldCell → Nat
  | .l0 => 12
  | .l1 => 13
  | .s0 => 14
  | .s1 => 15

def masterOfCode : Nat → Option Master
  | 0 => some .gateway
  | 1 => some .leftPanel
  | 2 => some .rightPanel
  | _ => none

def regionOfCode : Nat → Option Region
  | 0 => some .leftSeat
  | 1 => some .rightSeat
  | 2 => some .store
  | 3 => some .budget
  | 4 => some .config
  | 5 => some .access
  | _ => none

def rightOfCode : Nat → Option Right
  | 0 => some .none
  | 1 => some .read
  | 2 => some .write
  | 3 => some .readWrite
  | _ => none

/-! ## Comfort values (spec/00 section 4.5) -/

/-- CLAMPED where the stored value is not the carried one, otherwise OK. -/
def clampResult (carried stored : Nat) : ResultCode := if stored = carried then .ok else .clamped

/-! ## Cell sets -/

/-- The massage cells M0 to M11 (spec/00 section 4.3). -/
def massageCells : CellSet := 0x0FFF

/-- The one holding cell as a set. -/
def cellBit (c : HoldCell) : CellSet := 1#16 <<< cellNumber c

/-- Two sets of cells share a cell. -/
def overlap (a b : CellSet) : Bool := a &&& b != 0

/-! ## Parameters (spec/09 section 9.6.1) -/

/-- The values a parameter may hold. -/
inductive ParamRange where
  /-- Every integer from `lo` to `hi`. -/
  | span (lo hi : Nat)
  /-- The multiples of 100 from `lo` to `hi` (R93, R104). -/
  | hundreds (lo hi : Nat)
  /-- 0 for off, or every integer from `lo` to `hi` (R42). -/
  | zeroOr (lo hi : Nat)
  /-- 500, 1000, 2000 or 4000 (R22). -/
  | scan
  deriving DecidableEq, Repr

def paramRange (n : Nat) : ParamRange :=
  if n = 0 then .scan
  else if n ≤ 5 then .span 200 450
  else if n ≤ 10 then .span 0 100
  else if n = 11 then .span 1 40
  else if n = 12 then .span 0 50
  else if n ≤ 22 then .span 350 480
  else if n ≤ 27 then .span 0 50
  else if n ≤ 37 then .span 5 80
  else if n = 38 then .zeroOr 10 60
  else if n ≤ 41 then .span 1 40
  else if n = 42 then .span 0 30
  else if n = 43 then .span 0 600
  else if n = 44 then .span 0 300
  else if n = 45 then .span 0 50
  else if n = 46 then .span 20 120
  else if n = 47 then .span 5 60
  else if n = 48 then .span 100 1000
  else if n = 49 then .hundreds 200 3000
  else if n = 50 then .hundreds 500 5000
  else if n = 51 then .span 2 20
  else if n = 52 then .span 1 7
  else if n = 53 then .span 0 1
  else if n = 54 then .span 30 600
  else if n = 55 then .span 60 3600
  else if n ≤ 57 then .span 0 1
  else if n = 58 then .span 30 600
  else .span 10 50

/-- The value that a write stores (spec/09 R181): the nearest allowed one, the lower of two equally near, the step below in
steps of 100. -/
def nearestAllowed : ParamRange → Nat → Nat
  | .span lo hi, v => clampNat lo hi v
  | .hundreds lo hi, v => clampNat lo hi v / 100 * 100
  | .zeroOr lo hi, v => if 2 * v ≤ lo then 0 else clampNat lo hi v
  | .scan, v => if v ≤ 750 then 500 else if v ≤ 1500 then 1000 else if v ≤ 3000 then 2000 else 4000

def paramDefaults : List Nat :=
  [1000, 300, 330, 360, 390, 420, 10, 15, 20, 25, 30, 10, 20] ++
  [450, 450, 430, 450, 450, 450, 450, 430, 450, 450] ++
  [10, 15, 20, 20, 20] ++
  [45, 45, 15, 30, 10, 45, 45, 15, 30, 10] ++
  [30, 4, 7, 11, 5, 120, 60, 8, 75, 20] ++
  [250, 800, 1500, 8, 3, 0, 120, 600, 0, 0, 120, 30]

def paramDefault (n : Nat) : Nat := paramDefaults.getD n 0

/-- The parameters stand in canonical form. -/
def Params.wf (p : List (Nat × Nat)) : Bool :=
  Table.canonical paramDefault 0 59 p && p.all fun e => nearestAllowed (paramRange e.1) e.2 == e.2

/-- The value in force of a parameter. -/
def State.param (s : State) (n : Nat) : Nat := Table.get paramDefault s.params n

def State.putParam (s : State) (n v : Nat) : State := { s with params := Table.put paramDefault s.params n v }

def State.scanPeriod (s : State) : Nat := s.param 0
def State.targetTemp (s : State) (level : Nat) : Nat := s.param (min level 5)
def State.baseDuty (s : State) (level : Nat) : Nat := s.param (5 + min level 5)
def State.gain (s : State) : Nat := s.param 11
def State.limitDuty (s : State) : Nat := s.param 12
def State.surfaceLimit (s : State) (z : ZoneId) : Nat := s.param (13 + zoneNumber z)
def State.openLoop (s : State) (level : Nat) : Nat := s.param (22 + min level 5)
def State.rated (s : State) (z : ZoneId) : Nat := s.param (28 + zoneNumber z)
def State.stepDownTime (s : State) : Nat := s.param 38

/-- The fan current of a level; 0 at level 0 (spec/03 section 3.6). -/
def State.fanCurrent (s : State) (level : Nat) : Nat := if level = 0 then 0 else s.param (38 + min level 3)

def State.refreshTime (s : State) : Nat := s.param 42
def State.defaultCeiling (s : State) : Nat := s.param 43
def State.shedCeiling (s : State) : Nat := s.param 44
def State.overhead (s : State) : Nat := s.param 45
def State.pumpCurrent (s : State) : Nat := s.param 46
def State.overdrawMargin (s : State) : Nat := s.param 47
def State.switchTime (s : State) : Nat := s.param 48
def State.ventWindow (s : State) : Nat := s.param 49
def State.riseWindow (s : State) : Nat := s.param 50
/-- The maximum fill time in ms. -/
def State.maximumFill (s : State) : Nat := 1000 * s.param 51
def State.rotationLimit (s : State) : Nat := s.param 52
/-- The parking parameter is NONE, not LAST (spec/05 R110). -/
def State.parksNowhere (s : State) : Bool := s.param 53 == 1
/-- The vacancy delay and clear time in ms. -/
def State.vacancyDelay (s : State) : Nat := 1000 * s.param 54
def State.clearTime (s : State) : Nat := 1000 * s.param 55

def overrideNumber : Seat → Nat
  | .left => 56
  | .right => 57

/-- The occupancy override of a seat is ON (spec/01 R10). -/
def State.override (s : State) (x : Seat) : Bool := s.param (overrideNumber x) == 1

/-- The support refresh interval in ms (spec/08 R165). -/
def State.supportInterval (s : State) : Nat := 1000 * s.param 58
/-- The bus-low timeout (spec/09 R177). -/
def State.busLowLimit (s : State) : Nat := s.param 59

end Sys2Proof.Machine
end

