-- ==== Sys2Proof/Machine/Flags.lean ====
section
/-! DEFINITION. Every value the manual derives from others: caps and C_eff, the pump demand, the fill state, the cell valve
states, the fan duty. -/
namespace Sys2Proof.Machine

/-- The band cap; NORMAL caps at 600 (spec/04 R68). -/
def State.bandCap (s : State) : Nat :=
  match s.supply.band with
  | .normal => 600
  | .shed => s.shedCeiling
  | .stop => 0

/-- The effective ceiling (spec/04 R68). -/
def State.effectiveCeiling (s : State) : Nat := min s.budget.ceiling s.bandCap - 20 * s.budget.derate

/-- The allocator recomputes C_eff (spec/04 R68). -/
def recomputeCeiling (s : State) : State := s.modBudget fun b => { b with cEff := s.effectiveCeiling }

/-- The pump demand of a pass (spec/04 R69). -/
def State.pumpDemand (s : State) : Bool := !s.pneu.queue.isEmpty || s.pneu.holder.isSome

/-- The fill state (spec/05 R85): IDLE without a grant, SWITCHING until p0 is taken, FILLING after. -/
def Pneumatic.fillState (p : Pneumatic) : FillState :=
  match p.holder with
  | none => .idle
  | some h => if h.p0.isSome then .filling else .switching

def Holder.seat (h : Holder) : Seat := h.entry.requester.seat

/-- The cells of a seat that running vent operations cover. -/
def ventedCells (vents : List VentOp) (x : Seat) : CellSet :=
  vents.foldl (fun acc v => if v.owner.covers x then acc ||| v.cells else acc) 0

/-- The cells of a seat in FILL (spec/05 R89). -/
def filledCells (p : Pneumatic) (x : Seat) : CellSet :=
  match p.holder with
  | some h => if h.p0.isSome && (h.seat == x) then h.entry.cells else 0
  | none => 0

inductive ValveState where
  | hold | fill | vent
  deriving DecidableEq, Repr

/-- The valves of one cell, as VB_L and VB_R carry them (spec/05 R89). -/
def valveState (p : Pneumatic) (x : Seat) (cell : Nat) : ValveState :=
  if (filledCells p x).getLsbD cell then .fill
  else if (ventedCells p.vents x).getLsbD cell then .vent
  else .hold

/-- The output FP of a fan is driven (spec/03 R48). After a retry it comes on as time passes, so that a SET FAN to level 0 taken at
the moment of the expiry finds it not driven (R51; notes/assumptions/40.md). -/
def FanChannel.driven (f : FanChannel) : Bool := decide (1 ≤ f.granted) && !f.restarted

/-- The PWM duty on FP (spec/03 section 3.2). -/
def FanChannel.duty (f : FanChannel) : Nat :=
  if f.driven then
    match f.granted with
    | 0 => 0
    | 1 => 40
    | 2 => 70
    | _ => 100
  else 0

/-- The class of a VSNS sample against the present band (spec/04 R62), in 0.1 V. -/
def classify : Band → Nat → Band
  | .normal, v => if v < 90 then .stop else if v < 110 then .shed else .normal
  | .shed, v => if v < 90 then .stop else if v < 115 then .shed else .normal
  | .stop, v => if v < 95 then .stop else if v < 115 then .shed else .normal

/-- The class of the first sample after power-on (spec/04 R58). -/
def classifyFirst (v : Nat) : Band := if v < 95 then .stop else if v < 115 then .shed else .normal

end Sys2Proof.Machine
end

