-- ==== Sys2Proof/Machine/Fans.lean ====
section
/-! DEFINITION. The fan controller (spec/03): demand, granted level, tach watch, and what a level or an occupancy change
does at a fan channel. What the events of a fan do is in Machine/FanEvents.lean, after the allocation pass. -/
namespace Sys2Proof.Machine

/-- The fan takes a granted level (spec/03 R48): the tach watch starts where the output comes on and stops where it goes off
(R49). -/
def setGranted (g : Nat) (c : FanChannel) : FanChannel :=
  { c with
    granted := g
    tachWatch := if g = 0 then none else if c.granted = 0 then some 2000 else c.tachWatch }

/-- The demand level of a fan (spec/03 R47). -/
def fanDemand (active : Bool) (level : Nat) (st : FanState) : Nat :=
  if active && (st == .run) then level else 0

/-- The demand level is re-derived; below the granted level it lowers that at the same moment (spec/03 R47). -/
def rederive (active : Bool) (level : Nat) (c : FanChannel) : FanChannel :=
  let d := fanDemand active level c.state
  if d < c.granted then setGranted d { c with demand := d } else { c with demand := d }

/-- A level handed to the fan (spec/03 R51, R52, R54). `rearms` says that it comes of SET FAN, which clears a FAULT. -/
def handLevel (rearms : Bool) (level : Nat) (c : FanChannel) : FanChannel :=
  match c.state with
  | .fault =>
    if rearms then
      { c with state := if level = 0 then .off else .run, retries := 0, cleanRun := 0 }
    else c
  | .off => if level = 0 then c else { c with state := .run, cleanRun := 0 }
  | .run => if level = 0 then { c with state := .off } else c
  | .retryWait => if level = 0 then { c with state := .off, retryTimer := none } else c

/-- One fan's demand re-derived from the seat record (spec/03 R47). -/
def rederiveFan (f : FanId) (s : State) : State :=
  s.setFan f (rederive (s.active f.seat) (s.fanLevel f).value (s.fan f))

/-- A stored level handed to one fan, and its demand re-derived. -/
def handFan (rearms : Bool) (f : FanId) (s : State) : State :=
  let level := (s.fanLevel f).value
  s.setFan f (rederive (s.active f.seat) level (handLevel rearms level (s.fan f)))

/-- A seat's occupancy change at its two fans (spec/03 R54). -/
def rederiveSeatFans (x : Seat) (s : State) : State := (seatFans x).foldl (fun t f => rederiveFan f t) s

/-- The EMPTY transition at a seat's two fans: their stored levels are 0 (spec/03 R54). -/
def emptySeatFans (x : Seat) (s : State) : State := (seatFans x).foldl (fun t f => handFan false f t) s

/-- A stall of a fan whose output is driven (spec/03 R50, R52), before its notice and its pass. -/
def stallChannel (c : FanChannel) : FanChannel :=
  let stopped := setGranted 0 { c with cleanRun := 0, demand := 0 }
  if c.retries < 3 then { stopped with state := .retryWait, retryTimer := some 10000 }
  else { stopped with state := .fault }

/-- The retry timer runs out (spec/03 R51). -/
def restartChannel (c : FanChannel) : FanChannel :=
  { c with state := .run, retryTimer := none, retries := min 3 (c.retries + 1), cleanRun := 0, restarted := true }

/-- RESET SEATS at a fan channel (spec/03 R55). -/
def resetFan (c : FanChannel) : FanChannel :=
  setGranted 0 { c with state := .off, demand := 0, retryTimer := none, retries := 0, cleanRun := 0, restarted := false }

end Sys2Proof.Machine
end

