-- ==== Sys2Proof/Machine/Heating.lean ====
section
/-! DEFINITION. The heating controller (spec/02): the control law, the zone states, request and grant, the on-window and the
element faults. What the events of a zone do is in Machine/HeatingEvents.lean, after the allocation pass. -/
namespace Sys2Proof.Machine

/-! ## The window (spec/02 section 2.8) -/

/-- A granted duty lowered to `g` cuts the present window (spec/02 R37). A window cut short still awaits its judgement. -/
def cutWindow (g : Nat) (c : ZoneChannel) : ZoneChannel :=
  { c with grant := g, window := min c.window g, gate := c.gate && decide (c.onSlots < g) }

/-- A window ended outright: it is not judged (spec/02 R31, R37). -/
def endWindow (c : ZoneChannel) : ZoneChannel :=
  { c with window := 0, gate := false, onSlots := 0, unjudged := false, carried := false }

/-- The zone takes a granted duty (spec/02 R28): lowered at once, raised from its next frame on. -/
def takeGrant (g : Nat) (c : ZoneChannel) : ZoneChannel :=
  if g < c.grant then cutWindow g c else { c with grant := g }

/-- A new request duty: below the granted duty it lowers that at once (spec/02 R27). -/
def setRequest (r : Nat) (c : ZoneChannel) : ZoneChannel :=
  if r < c.grant then cutWindow r { c with request := r } else { c with request := r }

/-- The zone enters, or stays in, OFF, STANDBY or FAULT (spec/02 R30, R31, R33, R43). -/
def shutZone (st : ZoneState) (c : ZoneChannel) : ZoneChannel :=
  endWindow { c with state := st, request := 0, grant := 0, openLoad := 0, streak := 0 }

/-- The step-down minutes and seconds return to 0 (spec/02 R40). -/
def restartStepDown (c : ZoneChannel) : ZoneChannel := { c with minutes := 0, minuteMs := 0 }

/-! ## The control law (spec/02 R26) -/

/-- The request duty and state of a zone in closed loop. -/
def controlLaw (target base gain limitDuty limit : Nat) (m : Int) : Nat × ZoneState :=
  if (limit : Int) ≤ m then (0, .limit)
  else
    let e : Int := target - m
    let r : Nat := (max 0 (min ((base : Int) + Int.fdiv (gain * e) 10) 100)).toNat
    if (limit : Int) - 20 ≤ m then (min r limitDuty, .limit) else (r, .heating)

/-- The control law with the parameters in force. -/
def State.lawFor (s : State) (z : ZoneId) (level : Nat) (m : Int) : Nat × ZoneState :=
  controlLaw (s.targetTemp level) (s.baseDuty level) s.gain s.limitDuty (s.surfaceLimit z) m

/-- A zone in closed loop at reading `m`. -/
def closedLoop (s : State) (z : ZoneId) (m : Int) (c : ZoneChannel) : ZoneChannel :=
  let law := s.lawFor z (s.level z).value m
  setRequest law.1 { c with state := law.2 }

/-- HEATING or LIMIT (spec/02 section 2.3). -/
def ZoneState.isClosedLoop : ZoneState → Bool
  | .heating | .limit => true
  | .off | .degraded | .fault | .standby => false

/-- The states in which the zone heats: closed loop or DEGRADED. -/
def ZoneState.heats : ZoneState → Bool
  | .heating | .limit | .degraded => true
  | .off | .fault | .standby => false

/-- The zone's state and request by the first row of R25 that applies, and whether it enters DEGRADED now (R29). -/
def evaluateChannel (s : State) (z : ZoneId) (c : ZoneChannel) : ZoneChannel × Bool :=
  let level := (s.level z).value
  if !s.active z.seat then (shutZone .standby c, false)
  else if c.latch then (shutZone .fault c, false)
  else if level = 0 then (shutZone .off c, false)
  else if c.state = .degraded then (setRequest (s.openLoop level) c, false)
  else match c.temp with
    | none => (setRequest (s.openLoop level) { c with state := .degraded, streak := 0 }, true)
    | some m => (closedLoop s z m c, false)

/-- HEAT FAULT for a zone (spec/02 R29, R33). -/
def raiseHeatFault (z : ZoneId) (cause : HeatCause) (s : State) : State :=
  raiseSeat .heatFault z.seat (.heatFault z cause) none s

/-- The zone takes a channel; entering DEGRADED raises HEAT FAULT with cause SENSOR (spec/02 R29). -/
def putEvaluated (z : ZoneId) (r : ZoneChannel × Bool) (s : State) : State :=
  if r.2 then raiseHeatFault z .sensor (s.setZone z r.1) else s.setZone z r.1

/-- The heating controller evaluates a zone on its latest reading (spec/02 R25, R27). -/
def evaluateZone (z : ZoneId) (s : State) : State := putEvaluated z (evaluateChannel s z (s.zone z)) s

/-- A seat's occupancy change at its five zones (spec/02 R43). DESIGN CHOICE (notes/assumptions/39.md): in the order of the
zones' numbers, so that where several enter DEGRADED the one HEAT FAULT pair names the last of them. -/
def evaluateSeatZones (x : Seat) (s : State) : State := (seatZones x).foldl (fun t z => evaluateZone z t) s

/-! ## The scan at one zone (spec/02 R22, R23, R30) -/

/-- A reading is valid from −40.0 °C to 150.0 °C; otherwise the measured temperature is INVALID (spec/02 R23). -/
def validReading (v : Int) : Option Int := if -400 ≤ v ∧ v ≤ 1500 then some v else none

/-- A DEGRADED zone at a scan completion (spec/02 R30). -/
def scanDegraded (s : State) (z : ZoneId) (c : ZoneChannel) : ZoneChannel :=
  match c.temp with
  | none => setRequest (s.openLoop (s.level z).value) { c with streak := 0 }
  | some m =>
    if 3 ≤ c.streak + 1 then closedLoop s z m { c with streak := 0 }
    else setRequest (s.openLoop (s.level z).value) { c with streak := c.streak + 1 }

/-- The zone's reading of this scan, already stored, applied to its state and request (spec/02 R22 step 2). -/
def scanZone (z : ZoneId) (s : State) : State :=
  let c := s.zone z
  if s.active z.seat && !c.latch && decide ((s.level z).value ≠ 0) && (c.state == .degraded) then
    s.setZone z (scanDegraded s z c)
  else evaluateZone z s

/-! ## Element faults (spec/02 section 2.7) -/

/-- The effects of a FAULT latch at the zone and its notice; the pass that R33 also names follows in the event. -/
def latchZone (z : ZoneId) (cause : HeatCause) (s : State) : State :=
  let c := s.zone z
  raiseHeatFault z cause (s.setZone z (shutZone .fault { c with latch := true, faults := satSucc 255 c.faults }))

/-- The window is low: below 30 % of the rating (spec/02 R31). -/
def lowWindow (current rated : Nat) : Bool := 10 * current < 3 * rated

/-- The current is an over-current: above 150 % of the rating (spec/02 R32). -/
def overCurrent (current rated : Nat) : Bool := 15 * rated < current * 10

end Sys2Proof.Machine
end

