-- ==== Sys2Proof/Machine/Budget.lean ====
section
/-! DEFINITION. The budget allocator (spec/04): the allocation pass in its five steps and its hand-off to the heating and
fan controllers. The pneumatic controller's part of a pass (R79) is in Machine/Pneumatic.lean. -/
namespace Sys2Proof.Machine

/-- Everything a pass takes in (spec/04 R70), less the status of the previous result. -/
structure PassInput where
  cEff : Nat
  overhead : Nat
  pump : Nat
  demand : Bool
  /-- Demand levels f_j. -/
  fans : PerSeat (Pair Nat)
  /-- The fan current table, levels 1 to 3. -/
  fanI1 : Nat
  fanI2 : Nat
  fanI3 : Nat
  /-- Rated currents h_i. -/
  rated : PerSeat (Five Nat)
  /-- Request duties r_i. -/
  requests : PerSeat (Five Nat)
  deriving DecidableEq, Repr

/-- `fanI(l)` of spec/04 R70. -/
def PassInput.fanI (p : PassInput) : Nat → Nat
  | 0 => 0
  | 1 => p.fanI1
  | 2 => p.fanI2
  | _ => p.fanI3

def PerSeat.mapPairs (f : Nat → Nat) (p : PerSeat (Pair Nat)) : PerSeat (Pair Nat) := ⟨p.left.map f, p.right.map f⟩

def PerSeat.mapFives (f : Nat → Nat) (p : PerSeat (Five Nat)) : PerSeat (Five Nat) := ⟨p.left.map f, p.right.map f⟩

def PerSeat.sumPairs (p : PerSeat (Pair Nat)) : Nat :=
  p.left.cushion + p.left.backrest + p.right.cushion + p.right.backrest

/-- Σ h_i · x_i over the ten zones. -/
def weigh (h x : PerSeat (Five Nat)) : Nat :=
  h.left.cushion * x.left.cushion + h.left.backrest * x.left.backrest + h.left.neck * x.left.neck +
  h.left.legRest * x.left.legRest + h.left.armrest * x.left.armrest +
  h.right.cushion * x.right.cushion + h.right.backrest * x.right.backrest + h.right.neck * x.right.neck +
  h.right.legRest * x.right.legRest + h.right.armrest * x.right.armrest

/-- The levels that a fan cap grants: min(f_j, L) (spec/04 R73). -/
def PassInput.fansAt (p : PassInput) (cap : Nat) : PerSeat (Pair Nat) := PerSeat.mapPairs (min · cap) p.fans

/-- Σ fanI(min(f_j, L)). -/
def PassInput.fanSum (p : PassInput) (cap : Nat) : Nat := PerSeat.sumPairs (PerSeat.mapPairs p.fanI (p.fansAt cap))

/-- F_min: the level-1 currents of the fans that ask (spec/04 R72). -/
def PassInput.fanFloor (p : PassInput) : Nat :=
  PerSeat.sumPairs (PerSeat.mapPairs (fun f => if 1 ≤ f then p.fanI1 else 0) p.fans)

/-- W(x) = Σ h_i · min(r_i, x) (spec/04 R74). -/
def PassInput.heatAt (p : PassInput) (cap : Nat) : Nat := weigh p.rated (PerSeat.mapFives (min · cap) p.requests)

/-- The second step: the pump is permitted where it is wanted and fits above the fan floor (spec/04 R72). -/
def PassInput.pumpFits (p : PassInput) (a : Nat) : Bool := p.demand && decide (p.pump + p.fanFloor ≤ a)

/-- The third step: the fan cap (spec/04 R73). -/
def PassInput.fanCapFor (p : PassInput) (a : Nat) : Nat :=
  if p.fanSum 3 ≤ a then 3 else if p.fanSum 2 ≤ a then 2 else if p.fanSum 1 ≤ a then 1 else 0

/-- The largest cap not above `x` whose W fits the budget. -/
def PassInput.largestDuty (p : PassInput) (budget : Nat) : Nat → Nat
  | 0 => 0
  | x + 1 => if p.heatAt (x + 1) ≤ budget then x + 1 else p.largestDuty budget x

/-- The fourth step: the heater duty cap (spec/04 R74). -/
def PassInput.dutyCapFor (p : PassInput) (a : Nat) : Nat :=
  if p.heatAt 100 ≤ 100 * a then 100 else p.largestDuty (100 * a) 99

/-- An allocation pass (spec/04 R71 to R75). -/
def allocate (p : PassInput) : Allocation :=
  if p.cEff ≤ p.overhead then
    { status := .starved, demandSeen := p.demand, permitted := false, fanCap := 0, fanGrants := .both ⟨0, 0⟩,
      dutyCap := 0, grants := .both (Five.all 0), heater := 0, total := p.overhead }
  else
    let a := p.cEff - p.overhead
    let permitted := p.pumpFits a
    let pumpI := if permitted then p.pump else 0
    let cap := p.fanCapFor (a - pumpI)
    let fanI := p.fanSum cap
    let duty := p.dutyCapFor (a - pumpI - fanI)
    let heater := (p.heatAt duty + 99) / 100
    { status := if duty < 100 || (p.demand && !permitted) then .limited else .full
      demandSeen := p.demand, permitted := permitted, fanCap := cap, fanGrants := p.fansAt cap, dutyCap := duty,
      grants := PerSeat.mapFives (min · duty) p.requests, heater := heater,
      total := p.overhead + pumpI + fanI + heater }

/-- The inputs of a pass as they stand (spec/04 R70). -/
def State.passInput (s : State) : PassInput :=
  { cEff := s.budget.cEff, overhead := s.overhead, pump := s.pumpCurrent, demand := s.pumpDemand
    fans := ⟨s.fans.left.map (·.demand), s.fans.right.map (·.demand)⟩
    fanI1 := s.fanCurrent 1, fanI2 := s.fanCurrent 2, fanI3 := s.fanCurrent 3
    rated :=
      ⟨⟨s.rated ⟨.left, .cushion⟩, s.rated ⟨.left, .backrest⟩, s.rated ⟨.left, .neck⟩, s.rated ⟨.left, .legRest⟩,
        s.rated ⟨.left, .armrest⟩⟩,
       ⟨s.rated ⟨.right, .cushion⟩, s.rated ⟨.right, .backrest⟩, s.rated ⟨.right, .neck⟩, s.rated ⟨.right, .legRest⟩,
        s.rated ⟨.right, .armrest⟩⟩⟩
    requests := ⟨s.zones.left.map (·.request), s.zones.right.map (·.request)⟩ }

def takeGrants (g : Five Nat) (z : Five ZoneChannel) : Five ZoneChannel :=
  ⟨takeGrant g.cushion z.cushion, takeGrant g.backrest z.backrest, takeGrant g.neck z.neck, takeGrant g.legRest z.legRest,
    takeGrant g.armrest z.armrest⟩

def takeFanGrants (g : Pair Nat) (f : Pair FanChannel) : Pair FanChannel :=
  ⟨setGranted g.cushion f.cushion, setGranted g.backrest f.backrest⟩

/-- The granted duties to the heating controller and the granted levels to the fan controller (spec/04 R78). -/
def handOff (a : Allocation) (s : State) : State :=
  { s with
    zones := ⟨takeGrants a.grants.left s.zones.left, takeGrants a.grants.right s.zones.right⟩
    fans := ⟨takeFanGrants a.fanGrants.left s.fans.left, takeFanGrants a.fanGrants.right s.fans.right⟩ }

/-- BUDGET LIMITED where a limited result follows a FULL one (spec/04 R80). -/
def noteLimited (was : PassStatus) (a : Allocation) (s : State) : State :=
  if was = .full ∧ a.status ≠ .full then
    raiseDevice .budgetLimited (.limited (decide (a.dutyCap < 100)) (a.demandSeen && !a.permitted) a.dutyCap) s
  else s

/-- The pass without its hand-off: the result replaces the previous one in one step, raises the peak and may raise a notice
(spec/04 R65, R70, R80). -/
def storeResult (a : Allocation) (s : State) : State :=
  noteLimited s.budget.result.status a (s.modBudget fun b =>
    { b with result := a, peak := max b.peak a.total, stepPeak := b.stepPeak.map (max · a.total) })

/-- A whole pass at the allocator, the heating controller and the fan controller. -/
def passCore (s : State) : State :=
  let a := allocate s.passInput
  handOff a (storeResult a s)

end Sys2Proof.Machine
end

