-- ==== Sys2Proof/Machine/Pneumatic.lean ====
section
/-! DEFINITION. The pneumatic controller (spec/05): the selector, the vents, the pump grant queue, the arbiter, the fills and
their endings, and the pump permission of an allocation pass (spec/04 R79). -/
namespace Sys2Proof.Machine

/-! ## Selector (spec/05 R88) -/

/-- Where the selector rests or moves to. -/
def Selector.dest : Selector → SelPos
  | .atRest p => p
  | .moving t _ => t

/-- An order to move the selector. -/
def orderSelector (dest : SelPos) (s : State) : State :=
  if s.pneu.selector.dest = dest then s else s.modPneu fun p => { p with selector := .moving dest s.switchTime }

/-! ## Vent operations (spec/05 R91) -/

/-- The place of an owner in the list of vent operations. -/
def ventOwnerCode : VentOwner → Nat
  | .requester (.massage .left) => 0
  | .requester (.massage .right) => 1
  | .requester (.support .left) => 2
  | .requester (.support .right) => 3
  | .relief .left => 4
  | .relief .right => 5
  | .reset => 6

def dropVent (o : VentOwner) (l : List VentOp) : List VentOp := l.filter fun v => v.owner != o

/-- The operations with one more, in the order of their owners. -/
def insertVent (v : VentOp) : List VentOp → List VentOp
  | [] => [v]
  | w :: t => if ventOwnerCode v.owner < ventOwnerCode w.owner then v :: w :: t else w :: insertVent v t

/-- The owner's operation is replaced by a new one over `cells` for a full vent window (spec/05 R91 steps 2 and 3); an empty
set starts none. -/
def startVent (o : VentOwner) (cells : CellSet) (s : State) : State :=
  s.modPneu fun p =>
    let rest := dropVent o p.vents
    { p with vents := if cells = 0 then rest else insertVent ⟨o, cells, s.ventWindow⟩ rest }

def Pneumatic.vents? (p : Pneumatic) (o : VentOwner) : Bool := p.vents.any fun v => v.owner == o

/-- The owner's running operation has run out (spec/05 R92); one begun since has its own time. -/
def Pneumatic.ventOver (p : Pneumatic) (o : VentOwner) : Bool := p.vents.any fun v => v.owner == o && v.left == 0

/-! ## Selection (spec/05 R96 to R99) -/

/-- None of the entry's cells is in VENT (spec/05 R96). -/
def eligible (p : Pneumatic) (e : Entry) : Bool := !overlap (ventedCells p.vents e.requester.seat) e.cells

/-- One narrowing step: it keeps the candidates as they are where none satisfies it (spec/05 R98). -/
def narrow (keep : Entry → Bool) (l : List Entry) : List Entry :=
  if (l.filter keep).isEmpty then l else l.filter keep

/-- Step 1: with the count at K, the other seat's entries (spec/05 R98). -/
def rotationStep (p : Pneumatic) (limit : Nat) (l : List Entry) : List Entry :=
  match p.lastSeat with
  | some x => if p.rotation = limit then narrow (fun e => e.requester.seat != x) l else l
  | none => l

/-- Step 2: the SUPPORT entries (spec/05 R98). -/
def classStep (l : List Entry) : List Entry := narrow (fun e => e.requester.isSupport) l

/-- Step 3: with parking LAST in force, the entries of the seat at which the selector rests (spec/05 R98, R110). -/
def parkingStep (p : Pneumatic) (l : List Entry) : List Entry :=
  match p.selector with
  | .atRest pos => if p.parkNone then l else narrow (fun e => seatPos e.requester.seat == pos) l
  | .moving _ _ => l

/-- The entry that the arbiter would grant (spec/05 R98); the queue keeps its order, so step 4 is the first left. -/
def choose (s : State) : Option Entry :=
  (parkingStep s.pneu
    (classStep (rotationStep s.pneu s.rotationLimit (s.pneu.queue.filter (eligible s.pneu))))).head?

/-- The rotation count and last granted seat at a grant (spec/05 R99). -/
def countGrant (limit : Nat) (e : Entry) (p : Pneumatic) : Pneumatic :=
  if p.lastSeat = some e.requester.seat then
    if e.resumed then p else { p with rotation := min limit (p.rotation + 1) }
  else { p with rotation := 1, lastSeat := some e.requester.seat }

def removeEntry (r : Requester) (l : List Entry) : List Entry := l.filter fun e => e.requester != r

/-- The holder's record at the grant of an entry (spec/05 R100). -/
def Holder.granted (e : Entry) : Holder :=
  { entry := e, p0 := none, riseTimer := none, fillTimer := none, elapsed := 0 }

/-- The grant itself, without the selector (spec/05 R100). -/
def grantEntry (h : Holder) (s : State) : State :=
  (s.modPneu fun p =>
    let q := countGrant s.rotationLimit h.entry p
    { q with queue := removeEntry h.entry.requester p.queue, holder := some h }).report (.granted h.entry.requester)

/-! ## Fills (spec/05 section 5.5) -/

def State.manifoldOf (s : State) (x : Seat) : Nat := s.pneu.manifold.get x

/-- FILLING begins: p0 and the timers (spec/05 R102, R104). -/
def takeP0 (h : Holder) (s : State) : State :=
  s.modPneu fun p =>
    { p with
      holder := some
        { h with
          p0 := some (s.manifoldOf h.seat)
          riseTimer := if s.riseWindow < s.maximumFill then some s.riseWindow else none
          fillTimer := some s.maximumFill
          elapsed := 0 } }

/-- The leak check fails: too little rise toward a target that asks for enough (spec/05 R104). -/
def leaks (target p0 m : Nat) : Bool := decide (p0 + 20 ≤ target) && decide (m < p0 + 20)

/-- The start checks on p0: how the fill ends at once, if it does (spec/05 R102). -/
def startCheck (h : Holder) (p0 : Nat) : Option FillEnd :=
  if 500 ≤ p0 then some (.overpressure p0)
  else if h.entry.target ≤ p0 then some (.done true p0)
  else none

/-- Whether the ending starts the RELIEF vent (spec/05 R106). -/
def FillEnd.relieves : FillEnd → Bool
  | .overpressure _ => true
  | _ => false

/-- The effects of an ending and the first step of the release (spec/05 R103 to R110): the compressor stops, the cells leave
FILL, the holder becomes absent, the parking that is written comes into force and the outcome is reported. -/
def endFill (h : Holder) (how : FillEnd) (s : State) : State :=
  let stopped := s.modPneu fun p => { p with compressor := false, holder := none, parkNone := s.parksNowhere }
  let relieved := if how.relieves then startVent (.relief h.seat) h.entry.cells stopped else stopped
  relieved.report (.ended h.entry.requester how)

/-- Steps 3 and 4 of a release that made no grant (spec/05 R109): parking, and the pass on an empty queue. -/
def releaseTail (s : State) : State :=
  let parked := if s.parksNowhere then orderSelector .neutral s else s
  if s.pneu.queue.isEmpty then passCore parked else parked

/-- FILLING begins with its start checks passed: the compressor is switched on (spec/05 R90, R102). -/
def startCompressor (s : State) : State := s.modPneu fun p => { p with compressor := true }

/-- The first release of a command for which releases are to select no holder shuts the arbiter (spec/05 R107). -/
def shutAtRelease (s : State) : State := if s.releases = .armed then { s with releases := .shut } else s

/-- A release has granted an entry. -/
def markSelected (s : State) : State := if s.releases = .select then { s with releases := .selected } else s

/-- The arbiter may select: no grant is held, the latest pass permits the pump, and the arbiter is not shut (spec/05 R97, R107). -/
def State.maySelect (s : State) : Bool := s.pneu.holder.isNone && s.budget.result.permitted && s.releases != .shut

/-- The arbiter selects where it may and an entry is eligible (spec/05 R97 to R102). `release` says that the event is the release of a
grant. A grant whose start check ends its fill is a release in turn; each takes an entry off the queue, so the queue's length and one
bounds them. -/
def arbitrate : Nat → Bool → State → State
  | 0, _, s => s
  | n + 1, release, s₀ =>
    let s := if release then shutAtRelease s₀ else s₀
    if s.maySelect then
      match choose s with
      | some e =>
        let h := Holder.granted e
        let granted := grantEntry h (if release then markSelected s else s)
        if s.pneu.selector = .atRest (seatPos e.requester.seat) then
          let begun := takeP0 h granted
          match startCheck h (s.manifoldOf h.seat) with
          | some how => arbitrate n true (endFill h how begun)
          | none => startCompressor begun
        else orderSelector (seatPos e.requester.seat) granted
      | none => if release then releaseTail s else s
    else if release then releaseTail s else s

/-- A selection at an event that is no release (spec/05 R97). -/
def select (s : State) : State := arbitrate (s.pneu.queue.length + 1) false s

/-- A release of the grant (spec/05 R109), the holder being absent already. -/
def release (s : State) : State := arbitrate (s.pneu.queue.length + 1) true s

/-- A fill ends and its grant is released (spec/05 R109). -/
def finishFill (h : Holder) (how : FillEnd) (s : State) : State := release (endFill h how s)

/-- FILLING begins at the selector's arrival (spec/05 R88, R102). -/
def beginFilling (h : Holder) (s : State) : State :=
  match startCheck h (s.manifoldOf h.seat) with
  | some how => finishFill h how (takeP0 h s)
  | none => startCompressor (takeP0 h s)

/-! ## The pump permission of a pass (spec/04 R79, spec/05 R107) -/

/-- SUSPEND: the fill stops and its request goes back to the head of the queue, marked as resumed (spec/05 R107). -/
def suspend (h : Holder) (s : State) : State :=
  let back := (s.modPneu fun p =>
    { p with compressor := false, holder := none, queue := { h.entry with resumed := true } :: p.queue }).report
      (.ended h.entry.requester .suspend)
  if s.pneu.queue.isEmpty then passCore back else back

/-- The pneumatic controller takes the permission of the latest pass (spec/04 R79). -/
def takePermission (s : State) : State :=
  if s.budget.result.permitted then select s
  else match s.pneu.holder with
    | some h => suspend h s
    | none => s

/-- An allocation pass, applied at all three blocks (spec/04 R76 to R79). -/
def runPass (s : State) : State := takePermission (passCore s)

/-! ## Requests (spec/05 R91, R92, R94, R95) -/

/-- The fill that a requester holds, if it holds one. -/
def State.heldBy (s : State) (r : Requester) : Option Holder :=
  match s.pneu.holder with
  | some h => if h.entry.requester = r then some h else none
  | none => none

/-- The cells of the requester's fill in FILLING; none where it has no such fill. -/
def State.fillingFor (s : State) (r : Requester) : CellSet :=
  match s.heldBy r with
  | some h => if h.p0.isSome then h.entry.cells else 0
  | none => 0

def State.isQueued (s : State) (r : Requester) : Bool := s.pneu.queue.any fun e => e.requester == r

/-- A fill request (spec/05 R94). -/
def requestFill (r : Requester) (cells : CellSet) (target : Nat) (s : State) : State :=
  let e : Entry := { requester := r, cells := cells, target := min target 400, resumed := false }
  if cells = 0 then s.report (.ended r (.done true (s.manifoldOf r.seat)))
  else if s.isQueued r then
    select (s.modPneu fun p => { p with queue := p.queue.map fun x => if x.requester = r then e else x })
  else match s.heldBy r with
    | some _ =>
      let headed := release (s.modPneu fun p =>
        { p with
          compressor := false, holder := none, queue := { e with resumed := true } :: p.queue, parkNone := s.parksNowhere })
      if s.pneu.queue.isEmpty then runPass headed else headed
    | none =>
      let queued := s.modPneu fun p => { p with queue := p.queue ++ [e] }
      if s.pneu.queue.isEmpty then runPass queued else select queued

/-- A withdrawal (spec/05 R95). -/
def withdraw (r : Requester) (s : State) : State :=
  if s.isQueued r then
    let gone := s.modPneu fun p => { p with queue := removeEntry r p.queue }
    if gone.pneu.queue.isEmpty && gone.pneu.holder.isNone then runPass gone else gone
  else match s.heldBy r with
    | some h => finishFill h .withdrawn s
    | none => s

/-- The fill in progress covers one of the cells (spec/05 R91 step 1). -/
def reachesFill (o : VentOwner) (cells : CellSet) (p : Pneumatic) : Option Holder :=
  match p.holder with
  | some h => if h.p0.isSome && o.covers h.seat && overlap cells h.entry.cells then some h else none
  | none => none

/-- A vent request (spec/05 R91). An operation of the owner that it ends is an event at the arbiter (R92). -/
def requestVent (r : Requester) (cells : CellSet) (s : State) : State :=
  let o := VentOwner.requester r
  let freed := match reachesFill o cells s.pneu with
    | some h => finishFill h .withdrawn s
    | none => s
  let vented := startVent o cells freed
  let settled := if freed.pneu.vents? o then select vented else vented
  if cells = 0 then settled.report (.ventComplete r) else settled

/-- A vent cancel (spec/05 R92). -/
def cancelVent (r : Requester) (s : State) : State :=
  if s.pneu.vents? (.requester r) then
    select (s.modPneu fun p => { p with vents := dropVent (.requester r) p.vents })
  else s

/-- The parking in force after the end of a grant that may have been held: a fill that ends WITHDRAWN releases its grant
(spec/05 R108 to R110; notes/assumptions/42.md). -/
def State.parkingAfterReset (s : State) : Bool := if s.pneu.holder.isSome then s.parksNowhere else s.pneu.parkNone

/-- RESET SEATS at the pneumatic controller, steps 1 to 5 (spec/05 R111). -/
def resetPneumatic (s : State) : State :=
  let ended := match s.pneu.holder with
    | some h => s.report (.ended h.entry.requester .withdrawn)
    | none => s
  orderSelector .neutral
    (ended.modPneu fun p =>
      { p with
        holder := none, compressor := false, queue := [], rotation := 0, lastSeat := none
        vents := [⟨.reset, 0xFFFF, s.ventWindow⟩], parkNone := s.parkingAfterReset })

end Sys2Proof.Machine
end

