-- ==== Sys2Proof/Config.lean ====
section
/-! DEFINITION. What the manual leaves to the part: the content of the factory records it does not print, and the mean of no
readings. -/
namespace Sys2Proof

/-- FREE VALUE (notes/assumptions/9.md): the record the manufacturer put at a ROM index whose content spec/06 R115
does not print (indices 16 to 63). No body: nothing can prove a value of it. `Machine.romRecord` keeps the properties
that R115 promises of it. -/
opaque Config.factoryRecord : StepIndex → StepFields

/-- FREE VALUE (notes/assumptions/11.md): the mean of an interval without an ITOT reading, which spec/04 R64 does not state;
applied to the sum that came with it. No body. -/
opaque Config.meanOfNoReadings : Nat → Nat

end Sys2Proof
end

