-- ==== Sys2Proof/Machine/Store.lean ====
section
/-! DEFINITION. The pattern store (spec/06): the factory range, the RAM range with its error weights, the checked read, the
error log and the program directory. -/
namespace Sys2Proof.Machine

/-! ## Following a step (spec/07 R145) -/

/-- Where an advance leads. -/
inductive Advance where
  | enter (i : StepIndex)
  | finish
  | nest
  deriving DecidableEq, Repr

def follow : Option StepIndex → Advance
  | some i => .enter i
  | none => .finish

/-- The advance from step `i` with its copy, and the repeat counter it leaves (spec/07 R145). -/
def advanceFrom (i : StepIndex) (f : StepFields) (counter : Option RepeatCounter) : Advance × Option RepeatCounter :=
  match f.again with
  | some r =>
    match counter with
    | none => if r.count ≤ 1 then (follow f.next, none) else (.enter r.target, some ⟨r.count - 1, i⟩)
    | some k =>
      if k.owner = i then
        if k.value ≤ 1 then (follow f.next, none) else (.enter r.target, some ⟨k.value - 1, i⟩)
      else (.nest, some k)
  | none =>
    match counter with
    | some k => if k.owner = i then (follow f.next, none) else (follow f.next, some k)
    | none => (follow f.next, none)

/-! ## The factory range (spec/06 R115) -/

/-- A record that a factory program does not reach (spec/06 R115). -/
def unreachedStep : StepFields := { vent := 0, fill := 0, target := 0, dwell := 0, next := none, again := none }

/-- The printed records of program 0 (spec/06 R115). -/
def programZero : Nat → StepFields
  | 0 => { vent := 0x000, fill := 0x003, target := 240, dwell := 10, next := some 1, again := none }
  | 1 => { vent := 0x003, fill := 0x00C, target := 240, dwell := 10, next := some 2, again := none }
  | 2 => { vent := 0x00C, fill := 0x030, target := 260, dwell := 10, next := some 3, again := none }
  | 3 => { vent := 0x030, fill := 0x0C0, target := 280, dwell := 10, next := some 4, again := none }
  | 4 => { vent := 0x0C0, fill := 0x300, target := 280, dwell := 10, next := some 5, again := none }
  | 5 => { vent := 0x300, fill := 0xC00, target := 260, dwell := 15, next := some 6, again := some ⟨0, 3⟩ }
  | 6 => { vent := 0xC00, fill := 0x000, target := 0, dwell := 20, next := some 0, again := none }
  | _ => unreachedStep

/-- A block's sixteen records, offset by offset. -/
def blockOffsets : List Nat := [0, 1, 2, 3, 4, 5, 6, 7, 8, 9, 10, 11, 12, 13, 14, 15]

/-- The index lies in block `k`. -/
def inBlock (k : Nat) (i : StepIndex) : Bool := i.toNat / 16 == k

/-- The fields of a record stay within their ranges, its references within its block (spec/06 R113, R115). -/
def fieldsOk (k : Nat) (f : StepFields) : Bool :=
  decide (f.target ≤ 400) && decide (f.dwell ≤ 255) && (f.vent &&& 0xF000 == 0) && (f.fill &&& 0xF000 == 0) &&
  (match f.next with
    | some i => inBlock k i
    | none => true) &&
  match f.again with
    | some r => inBlock k r.target && decide (1 ≤ r.count) && decide (r.count ≤ 15)
    | none => true

/-- No repeat target lies between another repeating step and that step's target, both ends counted (spec/06 R115;
notes/assumptions/10.md). -/
def repeatsApart (block : Nat → StepFields) : Bool :=
  blockOffsets.all fun a => blockOffsets.all fun b =>
    match (block a).again, (block b).again with
    | some ra, some rb =>
      let t := ra.target.toNat % 16
      let u := rb.target.toNat % 16
      a == b || !(decide (min b u ≤ t) && decide (t ≤ max b u))
    | _, _ => true

/-- The most zero-time steps in a row that can stand on the cursor's count once it has left this one (spec/07 R140): a fill set
may end at the start check. -/
def hopsAfter (f : StepFields) (hops : Nat) : Nat := if f.vent = 0 ∧ f.dwell = 0 then hops + 1 else 0

/-- A cursor's walk through a block from step `i` on: the offsets it reaches, or none where it could meet a NEST fault, a LOOP
fault, or a cycle with no dwell above 0 (spec/06 R115). `quiet` holds the offsets left since a dwell above 0. The walk follows
`advanceFrom`, so that it ends at END, and a walk that stands at the first step again as it began has shown all it will do. -/
def walkBlock (block : Nat → StepFields) : Nat → StepIndex → Option RepeatCounter → Nat → List Nat → List Nat →
    Option (List Nat)
  | 0, _, _, _, _, seen => some seen
  | n + 1, i, counter, hops, quiet, seen =>
    let o := i.toNat % 16
    let f := block o
    let hopped := hopsAfter f hops
    let silent := if f.dwell = 0 then o :: quiet else []
    let reached := if seen.contains o then seen else o :: seen
    if quiet.contains o || decide (8 ≤ hopped) then none
    else match advanceFrom i f counter with
      | (.nest, _) => none
      | (.finish, _) => some reached
      | (.enter j, next) =>
        if j.toNat % 16 == 0 && next.isNone && hopped == 0 && silent.isEmpty then some reached
        else walkBlock block n j next hopped silent reached

/-- Moves enough for every walk of a block to repeat itself: twice its sixteen steps with each value of the repeat counter. -/
def walkBound : Nat := 8192

/-- The walk of factory program `k` from its first step. -/
def walkProgram (k : Nat) (block : Nat → StepFields) : Option (List Nat) :=
  walkBlock block walkBound (BitVec.ofNat 8 (16 * k)) none 0 [] []

/-- The records that the program does not reach are as R115 gives them. -/
def unreachedOk (block : Nat → StepFields) (reached : List Nat) : Bool :=
  blockOffsets.all fun o => reached.contains o || block o == unreachedStep

/-- The properties of a factory block on which software may rely (spec/06 R115). -/
def blockOk (k : Nat) (block : Nat → StepFields) : Bool :=
  (blockOffsets.all fun o => fieldsOk k (block o)) && repeatsApart block &&
  match walkProgram k block with
  | some reached => unreachedOk block reached
  | none => false

/-- The factory content of a block that the manual does not print: the free value, where it has R115's properties. -/
def freeBlock (k : Nat) : Nat → StepFields :=
  let raw := fun o => Config.factoryRecord (BitVec.ofNat 8 (16 * k + o))
  if blockOk k raw then raw else fun _ => unreachedStep

/-- A ROM record, indices 0 to 63 (spec/06 R115). -/
def romRecord (i : Nat) : StepFields := if i < 16 then programZero i else freeBlock (i / 16) (i % 16)

/-! ## The RAM range -/

/-- The index is in the ROM range (spec/06 R113). -/
def inRom (i : StepIndex) : Bool := i.toNat < 64

def State.ramRecord (s : State) (i : StepIndex) : RamRecord := Table.get blankRecord s.ram i.toNat

def State.putRam (s : State) (i : StepIndex) (r : RamRecord) : State :=
  { s with ram := Table.put blankRecord s.ram i.toNat r }

/-! ## The checked read (spec/06 section 6.3) -/

/-- The store's answer to a read. -/
inductive StoreAnswer where
  | rom (f : StepFields)
  | ram (corrected : Bool) (content : Content)
  | uncorrectable
  deriving DecidableEq, Repr

/-- The log updates of a correction (spec/06 R120). -/
def ErrorLog.correct (i : StepIndex) (l : ErrorLog) : ErrorLog :=
  { l with
    count := satSucc 255 l.count
    firstCorrectable := some (l.firstCorrectable.getD i)
    reported := true }

/-- The log updates of a failed read (spec/06 R121). -/
def ErrorLog.fail (i : StepIndex) (l : ErrorLog) : ErrorLog :=
  { l with firstUncorrectable := some (l.firstUncorrectable.getD i), flag := true }

/-- A correction: write-back, log and, where the mark was clear, STORE ERROR (spec/06 R120). -/
def correctRecord (i : StepIndex) (s : State) : State :=
  let scrubbed := { s.putRam i { content := (s.ramRecord i).content, weight := 0 } with log := s.log.correct i }
  if s.log.reported then scrubbed else raiseDevice .storeError (.storeError true i) scrubbed

/-- A failed read (spec/06 R121). -/
def failRead (i : StepIndex) (s : State) : State :=
  raiseDevice .storeError (.storeError false i) { s with log := s.log.fail i }

/-- The answer to a read of a record as it stands (spec/06 R119, R122). -/
def State.storeAnswer (s : State) (i : StepIndex) : StoreAnswer :=
  if inRom i then .rom (romRecord i.toNat)
  else
    let r := s.ramRecord i
    if r.weight = 0 then .ram false r.content
    else if r.weight = 1 then .ram true r.content
    else .uncorrectable

/-- What a read changes (spec/06 R120, R121). -/
def readRecord (i : StepIndex) (s : State) : State :=
  match s.storeAnswer i with
  | .ram true _ => correctRecord i s
  | .uncorrectable => failRead i s
  | .rom _ | .ram false _ => s

/-! ## The directory (spec/06 R125) -/

/-- The factory entries. -/
def factoryEntry : Nat → DirEntry
  | 0 => { valid := true, first := 0, minutes := 20 }
  | 1 => { valid := true, first := 16, minutes := 15 }
  | 2 => { valid := true, first := 32, minutes := 20 }
  | _ => { valid := true, first := 48, minutes := 10 }

/-- The directory entry of a program, 0 to 15. -/
def State.dirEntry (s : State) (n : Nat) : DirEntry :=
  if n < 4 then factoryEntry n else Table.get unsetEntry s.directory n

def State.putEntry (s : State) (n : Nat) (e : DirEntry) : State :=
  { s with directory := Table.put unsetEntry s.directory n e }

end Sys2Proof.Machine
end

