-- ==== Sys2Proof/Machine/Cursor.lean ====
section
/-! DEFINITION. The massage cursors (spec/07): step entry, scaling, the phases, the advance, ENDING and FAULT, and what a
cursor does with the reports of the pneumatic controller. The program commands are in Machine/Programs.lean. -/
namespace Sys2Proof.Machine

/-! ## Entering IDLE, ENDING and FAULT (spec/07 R133, R149, R151) -/

/-- The fields that entry to IDLE sets; intensity, speed and origin keep their values (spec/07 R133). -/
def Cursor.idled (c : Cursor) : Cursor :=
  { Cursor.powerOn with intensity := c.intensity, speed := c.speed, origin := c.origin }

/-- The fields that entry to ENDING sets (spec/07 R133, R149). -/
def Cursor.ended (cause : EndCause) (c : Cursor) : Cursor :=
  { c with state := .ending, phase := .none, counter := none, phaseMs := 0, cause := cause }

/-- The fields that entry to FAULT sets (spec/07 R133, R151). -/
def Cursor.faulted (code : FaultCode) (c : Cursor) : Cursor :=
  { c with state := .fault, phase := .none, counter := none, phaseMs := 0, fault := code }

/-- The cursor waits for a fill or has one (spec/07 R134). -/
def Cursor.fillPhase (c : Cursor) : Bool := c.state == .running && (c.phase == .fillWait || c.phase == .filling)

/-- The withdrawal a cursor sends as it leaves FILL WAIT or FILLING (spec/07 R134). -/
def withdrawCursor (x : Seat) (s : State) : State :=
  if (s.cursor x).fillPhase then withdraw (.massage x) s else s

/-- Entry to ENDING (spec/07 R149). -/
def enterEnding (x : Seat) (cause : EndCause) (s : State) : State :=
  requestVent (.massage x) massageCells ((withdrawCursor x s).modCursor x (Cursor.ended cause))

/-- AIR FAULT for a massage fault names the current step index (spec/07 R151). -/
def Cursor.stepOrZero (c : Cursor) : StepIndex := c.step.getD 0

/-- Entry to FAULT (spec/07 R151). -/
def enterFault (x : Seat) (code : FaultCode) (s : State) : State :=
  let vented := requestVent (.massage x) massageCells ((withdrawCursor x s).modCursor x (Cursor.faulted code))
  raiseSeat .airFault x (.massageFault code (s.cursor x).stepOrZero) none vented

/-! ## Scaling (spec/07 R139) -/

def effectiveTarget (target intensity : Nat) : Nat := min 400 (target * (50 + 10 * intensity) / 100)

/-- The speed multiplier in percent. -/
def speedPercent : Nat → Nat
  | 1 => 150
  | 2 => 100
  | _ => 70

def effectiveDwell (dwell speed : Nat) : Nat :=
  let d := dwell * speedPercent speed / 100
  if dwell ≠ 0 ∧ d = 0 then 1 else d

/-- The copy taken and scaled at a step's entry (spec/07 R138, R139). -/
def Cursor.took (f : StepFields) (c : Cursor) : Cursor :=
  { c with copy := some f, effTarget := effectiveTarget f.target c.intensity, effDwell := effectiveDwell f.dwell c.speed }

/-! ## Advancing (spec/07 R145) -/

/-- The advance from the cursor's current step. -/
def Cursor.advance (c : Cursor) : Advance × Option RepeatCounter :=
  match c.step, c.copy with
  | some i, some f => advanceFrom i f c.counter
  | _, _ => (.finish, c.counter)

/-! ## Entering a step (spec/07 R138, R140) -/

/-- VENT begins (spec/07 R141). -/
def beginVent (x : Seat) (cells : CellSet) (s : State) : State :=
  requestVent (.massage x) cells (s.modCursor x fun c => { c with phase := .vent, phaseMs := 0 })

/-- FILL WAIT begins (spec/07 R142). -/
def beginFillWait (x : Seat) (cells : CellSet) (s : State) : State :=
  requestFill (.massage x) cells (s.cursor x).effTarget
    (s.modCursor x fun c => { c with phase := .fillWait, phaseMs := 0 })

/-- DWELL begins (spec/07 R144). -/
def beginDwell (x : Seat) (s : State) : State :=
  s.modCursor x fun c => { c with phase := .dwell, phaseMs := 100 * c.effDwell }

/-- A zero-time step as R140 defines it, the one with a fill set leaving the count as it is. -/
def Cursor.hopAtEntry (f : StepFields) (c : Cursor) : Cursor :=
  if f.vent = 0 ∧ c.effDwell = 0 then
    if f.fill = 0 then { c with hops := c.hops + 1 } else c
  else { c with hops := 0 }

/-- The fetch and the scaling of a VALID copy with its zero-time check (spec/07 R138 to R140). -/
def takeStep (x : Seat) (i : StepIndex) (f : StepFields) (s : State) : State :=
  (readRecord i s).modCursor x fun c => (Cursor.took f { c with step := some i }).hopAtEntry f

/-- What the cursor's fetch returns (spec/06 R122): a copy, or the fault its absence makes. -/
def State.fetch (s : State) (i : StepIndex) : StepFields ⊕ FaultCode :=
  match s.storeAnswer i with
  | .rom f => .inl f
  | .ram _ (some f) => .inl f
  | .ram _ none => .inr .blank
  | .uncorrectable => .inr .store

/-- The cursor enters a step; through steps that take no time it goes on at once. The eighth of them in a row faults it
(spec/07 R140), so nine entries bound it. DESIGN CHOICE (notes/assumptions/41.md): where the fetch brings no copy, the step copy
and the effective target and dwell keep the step's before it, under the step index entered. -/
def enterStep : Nat → Seat → StepIndex → State → State
  | 0, _, _, s => s
  | n + 1, x, i, s =>
    match s.fetch i with
    | .inr code => enterFault x code ((readRecord i s).modCursor x fun c => { c with step := some i })
    | .inl f =>
      let t := takeStep x i f s
      let c := t.cursor x
      if f.vent ≠ 0 then beginVent x f.vent t
      else if f.fill ≠ 0 then beginFillWait x f.fill t
      else if c.effDwell ≠ 0 then beginDwell x t
      else if 8 ≤ c.hops then enterFault x .loop t
      else
        let u := t.modCursor x fun c => { c with counter := c.advance.2 }
        match c.advance.1 with
        | .enter j => enterStep n x j u
        | .finish => enterEnding x .ended u
        | .nest => enterFault x .nest u

/-- The entries one event can make. -/
def entryBound : Nat := 9

/-- The cursor advances from its current step (spec/07 R145). -/
def advanceCursor (x : Seat) (s : State) : State :=
  let c := s.cursor x
  let u := s.modCursor x fun c => { c with counter := c.advance.2, phaseMs := 0 }
  match c.advance.1 with
  | .enter j => enterStep entryBound x j u
  | .finish => enterEnding x .ended u
  | .nest => enterFault x .nest u

/-- DWELL where the effective dwell is above 0, and otherwise an advance at once (spec/07 R141, R143). -/
def dwellOrAdvance (x : Seat) (s : State) : State :=
  if (s.cursor x).effDwell ≠ 0 then beginDwell x s else advanceCursor x s

/-! ## Reports of the pneumatic controller (spec/07 R134, R141 to R143) -/

/-- VENT COMPLETE in the VENT phase (spec/07 R141). -/
def ventPhaseDone (x : Seat) (s : State) : State :=
  match (s.cursor x).copy with
  | some f => if f.fill ≠ 0 then beginFillWait x f.fill s else dwellOrAdvance x s
  | none => dwellOrAdvance x s

/-- The ENDING vent completes (spec/07 R149, R150). -/
def endingDone (x : Seat) (s : State) : State :=
  let c := s.cursor x
  raiseSeat .programEnd x (.programEnd (c.program.getD 0) c.cause) none (s.modCursor x Cursor.idled)

/-- VENT COMPLETE at a cursor (spec/07 R134). -/
def cursorVentComplete (x : Seat) (s : State) : State :=
  match (s.cursor x).state with
  | .running => if (s.cursor x).phase = .vent then ventPhaseDone x s else s
  | .ending => endingDone x s
  | .idle | .paused | .fault => s

/-- GRANTED at a cursor (spec/07 R142). -/
def cursorGranted (x : Seat) (s : State) : State :=
  if (s.cursor x).state = .running ∧ (s.cursor x).phase = .fillWait then
    s.modCursor x fun c => { c with phase := .filling }
  else s

/-- The step takes no time where its fill ends DONE at the start check: neither vent set nor dwell (spec/07 R140). -/
def Cursor.fillTakesNoTime (c : Cursor) : Bool :=
  match c.copy with
  | some f => f.vent == 0 && c.effDwell == 0
  | none => false

/-- DONE or UNDERFILL at a cursor (spec/07 R140, R143); `atStart` says that the start check ended the fill. -/
def cursorFilled (x : Seat) (atStart : Bool) (s : State) : State :=
  if atStart then
    if (s.cursor x).fillTakesNoTime then
      let t := s.modCursor x fun c => { c with hops := c.hops + 1 }
      if 8 ≤ (t.cursor x).hops then enterFault x .loop t else advanceCursor x t
    else dwellOrAdvance x s
  else dwellOrAdvance x (s.modCursor x fun c => { c with hops := 0 })

/-- The underfill count rises (spec/01 R16). -/
def countUnderfill (x : Seat) (s : State) : State :=
  s.modSeat x fun r => { r with underfill := satSucc 255 r.underfill }

/-- A fill outcome at a cursor (spec/07 R143). -/
def cursorOutcome (x : Seat) (how : FillEnd) (s : State) : State :=
  if (s.cursor x).fillPhase then
    match how with
    | .done atStart _ => cursorFilled x atStart s
    | .underfill _ => cursorFilled x false (countUnderfill x s)
    | .leak _ => enterFault x .leak s
    | .overpressure _ => enterFault x .overpressure s
    | .suspend => s.modCursor x fun c => { c with phase := .fillWait }
    | .withdrawn => s
  else s

end Sys2Proof.Machine
end

