-- ==== Sys2Proof/Machine/Support.lean ====
section
/-! DEFINITION. The support regulators (spec/08): setpoints, the venting set, service in cell order, and what a regulator
does with the reports of the pneumatic controller. -/
namespace Sys2Proof.Machine

/-- The cell a service is for. -/
def Service.cell : Service → Option HoldCell
  | .free => none
  | .waiting c => some c
  | .filling c => some c

def State.setNeed (s : State) (x : Seat) (c : HoldCell) (n : Need) : State :=
  s.modRegulator x fun r => { r with needs := r.needs.set c n }

def State.setService (s : State) (x : Seat) (v : Service) : State := s.modRegulator x fun r => { r with service := v }

def State.need (s : State) (x : Seat) (c : HoldCell) : Need := (s.regulator x).needs.get c

def State.faultMark (s : State) (x : Seat) (c : HoldCell) : Bool := (s.regulator x).marks.get c

/-- The venting set: the cells whose need is VENT (spec/08 R159). -/
def Regulator.ventingSet (r : Regulator) : CellSet :=
  holdCells.foldl (fun acc c => if r.needs.get c = .vent then acc ||| cellBit c else acc) 0

/-- The lowest-numbered cell whose need is FILL (spec/08 R162). -/
def Regulator.nextCell (r : Regulator) : Option HoldCell := holdCells.find? fun c => r.needs.get c == .fill

/-- A selection at the regulator (spec/08 R162). -/
def selectCell (x : Seat) (s : State) : State :=
  if (s.regulator x).service = .free ∧ (s.seat x).occupancy ≠ .empty then
    match (s.regulator x).nextCell with
    | some c => requestFill (.support x) (cellBit c) (s.setpoint x c).value (s.setService x (.waiting c))
    | none => s
  else s

/-- A cell joins the venting set (spec/08 R161). -/
def joinVent (x : Seat) (c : HoldCell) (s : State) : State :=
  let t := s.setNeed x c .vent
  requestVent (.support x) (t.regulator x).ventingSet t

/-- The fill of a cell that the moment has ended is kept; the first one, where there are two (spec/01 R7). -/
def Regulator.keepCut (c : HoldCell) (k : CutFill) (r : Regulator) : Regulator :=
  { r with cuts := r.cuts.set c (some ((r.cuts.get c).getD k)) }

/-- A setpoint handed to the served cell ends its fill (spec/08 R160). What a LEAK or OVERPRESSURE that falls together with it and
is taken after it needs is kept (spec/01 R7; notes/assumptions/38.md). -/
def cutShort (x : Seat) (c : HoldCell) (s : State) : State :=
  match s.heldBy (.support x) with
  | some h =>
    match h.p0 with
    | some p0 =>
      s.modRegulator x (Regulator.keepCut c { target := h.entry.target, p0 := p0, riseDue := h.riseTimer == some 0 })
    | none => s
  | none => s

/-- A raised setpoint at a cell (spec/08 R160). -/
def raiseCell (x : Seat) (c : HoldCell) (s : State) : State :=
  match s.need x c with
  | .held => selectCell x (s.setNeed x c .fill)
  | .fill =>
    if (s.regulator x).service.cell = some c then
      requestFill (.support x) (cellBit c) (s.setpoint x c).value ((cutShort x c s).setService x (.waiting c))
    else s
  | .vent => s

/-- A lowered setpoint at a cell (spec/08 R160). -/
def lowerCell (x : Seat) (c : HoldCell) (s : State) : State :=
  match s.need x c with
  | .vent => s
  | .held | .fill =>
    if (s.regulator x).service.cell = some c then
      selectCell x (joinVent x c ((withdraw (.support x) (cutShort x c s)).setService x .free))
    else joinVent x c s

/-- A setpoint handed to a regulator whose seat is EMPTY (spec/08 R166). -/
def handEmpty (x : Seat) (c : HoldCell) (new : Nat) (s : State) : State :=
  if s.need x c = .vent then s else s.setNeed x c (if new = 0 then .held else .fill)

/-- A stored setpoint handed to the regulator together with the one it replaces (spec/08 R160, R166). -/
def handSetpoint (x : Seat) (c : HoldCell) (old new : Nat) (s : State) : State :=
  if (s.seat x).occupancy = .empty then handEmpty x c new s
  else if old < new then raiseCell x c s
  else if new < old then lowerCell x c s
  else s

/-- A LEAK or OVERPRESSURE faults the served cell (spec/08 R164). -/
def faultCell (x : Seat) (c : HoldCell) (o : CellOutcome) (s : State) : State :=
  let stored := s.setSetpoint x c { value := 0, origin := .device }
  let marked := stored.modRegulator x fun r => { r with marks := r.marks.set c true }
  raiseSeat .airFault x (.supportFault c o) none (joinVent x c marked)

/-- The fault of a fill that a SET SUPPORT of this moment has ended (spec/01 R7): the cell is no longer served, and is faulted as
after the outcome itself. -/
def faultCut (x : Seat) (c : HoldCell) (o : CellOutcome) (s : State) : State :=
  let t := s.modRegulator x fun r => { r with cuts := r.cuts.set c none }
  let freed := if (s.regulator x).service.cell = some c then (withdraw (.support x) t).setService x .free else t
  selectCell x (faultCell x c o freed)

/-- The rise window of a cell's ended fill runs out at this moment, and the fill leaked (spec/01 R7, spec/05 R104). -/
def leakCell (x : Seat) (s : State) (c : HoldCell) : State :=
  match (s.regulator x).cuts.get c with
  | some k => if k.riseDue && leaks k.target k.p0 (s.manifoldOf x) then faultCut x c .leak s else s
  | none => s

/-- A rise window's end at the fills that the moment has ended. -/
def leakCut (x : Seat) (s : State) : State := holdCells.foldl (leakCell x) s

/-- A sample of 500 or more at a cell's ended fill (spec/01 R7, spec/05 R106). `judged` holds the cells of the fill that has taken
the sample itself, whose outcome faults its cell. -/
def burstCell (x : Seat) (judged : CellSet) (s : State) (c : HoldCell) : State :=
  match (s.regulator x).cuts.get c with
  | some _ => if !overlap judged (cellBit c) && decide (500 ≤ s.manifoldOf x) then faultCut x c .overpressure s else s
  | none => s

/-- A sample at the fills that the moment has ended, in the order of their cells (DESIGN CHOICE, notes/assumptions/50.md). -/
def burstCut (x : Seat) (judged : CellSet) (s : State) : State := holdCells.foldl (burstCell x judged) s

/-- GRANTED at a regulator (spec/08 R163). -/
def supportGranted (x : Seat) (s : State) : State :=
  match (s.regulator x).service with
  | .waiting c => s.setService x (.filling c)
  | .free | .filling _ => s

/-- SUSPEND at a regulator (spec/08 R163). -/
def supportSuspended (x : Seat) (s : State) : State :=
  match (s.regulator x).service with
  | .filling c => s.setService x (.waiting c)
  | .free | .waiting _ => s

/-- A fill outcome at a regulator for its served cell (spec/08 R163). -/
def supportOutcome (x : Seat) (how : FillEnd) (s : State) : State :=
  match (s.regulator x).service.cell with
  | none => s
  | some c =>
    match how with
    | .done _ _ => selectCell x ((s.setNeed x c .held).setService x .free)
    | .underfill _ => selectCell x ((s.setNeed x c .held).setService x .free)
    | .leak _ => selectCell x (faultCell x c .leak (s.setService x .free))
    | .overpressure _ => selectCell x (faultCell x c .overpressure (s.setService x .free))
    | .suspend => supportSuspended x s
    | .withdrawn => s

/-- The need a cell takes when its vent completes (spec/08 R161). -/
def needAfterVent (s : State) (x : Seat) (c : HoldCell) : Need :=
  if s.need x c = .vent then
    if (s.setpoint x c).value ≠ 0 ∧ s.faultMark x c = false then .fill else .held
  else s.need x c

/-- VENT COMPLETE at a regulator; with an empty venting set it has no effect (spec/08 R161). -/
def supportVentComplete (x : Seat) (s : State) : State :=
  if (s.regulator x).ventingSet = 0 then s
  else
    selectCell x (s.modRegulator x fun r =>
      { r with needs := ⟨needAfterVent s x .l0, needAfterVent s x .l1, needAfterVent s x .s0, needAfterVent s x .s1⟩ })

/-- The seat enters EMPTY: the regulator withdraws and vents all four cells (spec/08 R166). -/
def emptyRegulator (x : Seat) (s : State) : State :=
  let freed := if (s.regulator x).service = .free then s else (withdraw (.support x) s).setService x .free
  requestVent (.support x) 0xF000 (freed.modRegulator x fun r => { r with needs := Four.all .vent, cuts := Four.all none })

/-- RESET SEATS at a regulator (spec/08 R167). -/
def Regulator.cleared (r : Regulator) : Regulator :=
  { r with needs := Four.all .held, marks := Four.all false, service := .free, cuts := Four.all none }

/-- The cells that a refresh expiry marks (spec/08 R165). -/
def needAfterRefresh (s : State) (x : Seat) (c : HoldCell) : Need :=
  if (s.setpoint x c).value ≠ 0 ∧ s.faultMark x c = false ∧ s.need x c = .held then .fill else s.need x c

/-- The refresh timer runs out (spec/08 R165). -/
def refreshRegulator (x : Seat) (s : State) : State :=
  selectCell x (s.modRegulator x fun r =>
    { r with
      needs := ⟨needAfterRefresh s x .l0, needAfterRefresh s x .l1, needAfterRefresh s x .s0, needAfterRefresh s x .s1⟩
      refresh := s.supportInterval })

end Sys2Proof.Machine
end

