-- ==== Sys2Proof/Machine/Reports.lean ====
section
/-! DEFINITION. The requesters take the pneumatic controller's reports in the order it made them (spec/07 R134,
spec/08 R163), each after the event that made it is complete. -/
namespace Sys2Proof.Machine

/-- One report taken by its requester. -/
def takeReport : Report → State → State
  | .granted (.massage x), s => cursorGranted x s
  | .granted (.support x), s => supportGranted x s
  | .ended (.massage x) how, s => cursorOutcome x how s
  | .ended (.support x) how, s => supportOutcome x how s
  | .ventComplete (.massage x), s => cursorVentComplete x s
  | .ventComplete (.support x), s => supportVentComplete x s

/-- The reports are taken, oldest first, with those they lead to. The bound is above what one event can make; a report
beyond it would stay in `reports` for the next command (notes/assumptions/24.md). -/
def settle : Nat → State → State
  | 0, s => s
  | n + 1, s =>
    match s.reports with
    | [] => s
    | r :: rest => settle n (takeReport r { s with reports := rest })

/-- The reports that one command takes at most. -/
def reportBound : Nat := 128

/-- A command's effect, followed by everything its reports lead to. -/
def runEffect (f : State → State) (s : State) : State := settle reportBound (f s)

/-- The part as it would stand had the releases of this moment selected no holder. -/
def State.shutApart (p : Part) (s : State) : State := { s with toPart := p, reports := [], releases := .shut }

/-- A pass of the command has withdrawn the permission that the part had before it (spec/04 R79). -/
def withdrawsPump (p q : Part) : Bool := p.budget.result.permitted && q.budget.result.demandSeen && !q.budget.result.permitted

/-- The effect of a command on a part with supply. Where a release of it grants an entry, the part as it would stand without that
selection is kept beside it and takes the commands of the moment too, and a pass of one of them that withdraws the permission finds
it so (spec/05 R107: with permission withdrawn the release selects no new holder; DEDUCED, notes/assumptions/43.md). -/
def takeEffect (f : State → State) (s : State) : State :=
  match s.releases with
  | .shut => { runEffect f s with releases := .shut }
  | .apart p =>
    let t := runEffect f { s with releases := .select }
    let u := runEffect f (s.shutApart p)
    if withdrawsPump p u.toPart then { u with releases := .select }
    else { t with releases := if t.powered then .apart u.toPart else .select }
  | .select | .selected | .armed =>
    let t := runEffect f { s with releases := .select }
    { t with
      releases := if t.releases = .selected then .apart (runEffect f { s with releases := .armed }).toPart else .select }

/-- A command of the part; without supply nothing is taken (spec/04 R62). -/
def taken (f : State → State) (s : State) : Host.Outcome State Fault Refusal :=
  .next (if s.powered then takeEffect f s else s)

end Sys2Proof.Machine
end

