-- ==== Sys2Proof/Machine/AirEvents.lean ====
section
/-! DEFINITION. The events of the pneumatic controller, the store, the cursors and the regulators (spec/05 to 08):
MANIFOLD_SAMPLE, SELECTOR_ARRIVAL, RISE_WINDOW_EXPIRY, MAXIMUM_FILL_EXPIRY, VENT_END, CELL_BIT_ERROR, DWELL_END,
PROGRAM_TIMER_EXPIRY and SUPPORT_REFRESH_EXPIRY. -/
namespace Sys2Proof.Machine

/-- A manifold sample as it is stored, 0 to 1000 (spec/05 R87). -/
def storedPressure (v : Int) : Nat := min 1000 v.toNat

/-- A sample of the holder's seat taken in FILLING (spec/05 R103, R106): how it ends the fill, if it does. -/
def judgeSample (h : Holder) (m : Nat) : Option FillEnd :=
  if 500 ≤ m then some (.overpressure m)
  else if h.entry.target ≤ m then some (.done false m)
  else none

/-- Both samples stored (spec/05 R87). -/
def storeSamples (l r : Int) (s : State) : State :=
  { s.modPneu (fun p => { p with manifold := ⟨storedPressure l, storedPressure r⟩ }) with manifoldTimer := 50 }

/-- The stored samples at the fill in progress (spec/05 R103, R106). -/
def judgeFill (s : State) : State :=
  match s.pneu.holder with
  | some h =>
    if h.p0.isSome then
      match judgeSample h (s.manifoldOf h.seat) with
      | some how => finishFill h how s
      | none => s
    else s
  | none => s

/-- MANIFOLD_SAMPLE (spec/05 R87). The overpressure of a fill that a SET SUPPORT of this moment has ended still faults its cell
(spec/01 R7), beside that of a fill of another cell which the regulator has begun instead. DESIGN CHOICE (notes/assumptions/50.md): where
one sample faults several fills the ended ones come first, LEFT before RIGHT and in the order of their cells, and the fill in progress
last, so the one AIR FAULT pair of a seat names the last of them (spec/08 R164, spec/10 R185). -/
def sampleManifolds (l r : Int) (s : State) : State :=
  let t := storeSamples l r s
  burstCut .right (t.fillingFor (.support .right)) (burstCut .left (t.fillingFor (.support .left)) (judgeFill t))

def execManifoldSample (l r : Int) (s : State) : Host.Outcome State Fault Refusal := taken (sampleManifolds l r) s

/-- SELECTOR_ARRIVAL (spec/05 R88, R101): the movement's time has run out, which a new order taken first prevents. DESIGN CHOICE
(notes/assumptions/45.md): were a cell of the holder's set still in VENT, no FILLING would begin (R89). -/
def arriveSelector (s : State) : State :=
  match s.pneu.selector with
  | .atRest _ => s
  | .moving _ (_ + 1) => s
  | .moving dest 0 =>
    let t := s.modPneu fun p => { p with selector := .atRest dest }
    match t.pneu.holder with
    | some h => if h.p0.isNone ∧ seatPos h.seat = dest ∧ eligible t.pneu h.entry = true then beginFilling h t else t
    | none => t

def execSelectorArrival (s : State) : Host.Outcome State Fault Refusal := taken arriveSelector s

/-- RISE_WINDOW_EXPIRY (spec/05 R104): the rise window of the fill in progress has run out. Where it is that of a fill which a SET
SUPPORT of this moment has ended, a leak still faults its cell (spec/01 R7). -/
def expireRise (s : State) : State :=
  match s.pneu.holder with
  | some h =>
    match h.p0, h.riseTimer with
    | some p0, some 0 =>
      let m := s.manifoldOf h.seat
      if leaks h.entry.target p0 m then finishFill h (.leak m) s
      else s.modPneu fun p => { p with holder := some { h with riseTimer := none } }
    | _, _ => leakCut .right (leakCut .left s)
  | none => leakCut .right (leakCut .left s)

def execRiseWindowExpiry (s : State) : Host.Outcome State Fault Refusal := taken expireRise s

/-- MAXIMUM_FILL_EXPIRY (spec/05 R105): the maximum fill time of the fill in progress has run out. -/
def expireFill (s : State) : State :=
  match s.pneu.holder with
  | some h => if h.p0.isSome && (h.fillTimer == some 0) then finishFill h (.underfill (s.manifoldOf h.seat)) s else s
  | none => s

def execMaximumFillExpiry (s : State) : Host.Outcome State Fault Refusal := taken expireFill s

/-- VENT_END (spec/05 R92): the owner's operation has run out; its cells return to HOLD, the arbiter may select, and VENT COMPLETE
goes to a requester. -/
def endVent (o : VentOwner) (s : State) : State :=
  if s.pneu.ventOver o then
    let t := select (s.modPneu fun p => { p with vents := dropVent o p.vents })
    match o with
    | .requester r => t.report (.ventComplete r)
    | .relief _ | .reset => t
  else s

def execVentEnd (o : VentOwner) (s : State) : Host.Outcome State Fault Refusal := taken (endVent o) s

/-- CELL_BIT_ERROR (spec/06 R118): ROM records carry no weight. -/
def disturb (i : StepIndex) (s : State) : State :=
  if inRom i then s else s.putRam i { s.ramRecord i with weight := (s.ramRecord i).weight + 1 }

def execCellBitError (i : StepIndex) (s : State) : Host.Outcome State Fault Refusal := taken (disturb i) s

/-- DWELL_END (spec/07 R144): the phase time of the dwell has reached 0. -/
def endDwell (x : Seat) (s : State) : State :=
  if (s.cursor x).state = .running ∧ (s.cursor x).phase = .dwell ∧ (s.cursor x).phaseMs = 0 then advanceCursor x s else s

def execDwellEnd (x : Seat) (s : State) : Host.Outcome State Fault Refusal := taken (endDwell x) s

/-- PROGRAM_TIMER_EXPIRY (spec/07 R148): the time remaining has reached 0 in RUNNING. -/
def expireProgram (x : Seat) (s : State) : State :=
  if (s.cursor x).state = .running ∧ (s.cursor x).seconds = 0 then enterEnding x .expired s else s

def execProgramTimerExpiry (x : Seat) (s : State) : Host.Outcome State Fault Refusal := taken (expireProgram x) s

/-- SUPPORT_REFRESH_EXPIRY (spec/08 R165): the refresh timer has run out. -/
def expireSupport (x : Seat) (s : State) : State := if (s.regulator x).refresh = 0 then refreshRegulator x s else s

def execSupportRefreshExpiry (x : Seat) (s : State) : Host.Outcome State Fault Refusal := taken (expireSupport x) s

end Sys2Proof.Machine
end

