-- ==== Sys2Proof/Machine/Encode.lean ====
section
/-! DEFINITION. The bytes of the cabin bus (spec/09 R173, R183): the check byte, the coding of every field of a response, and
the responses' fields command by command. -/
namespace Sys2Proof.Machine

/-! ## The check byte (spec/09 R173) -/

/-- One bit of a byte shifted into the register. -/
def crcBit (r : Byte) (bit : Bool) : Byte := if r.getLsbD 7 != bit then (r <<< 1) ^^^ 0x2F else r <<< 1

/-- One byte, most significant bit first. -/
def crcByte (r b : Byte) : Byte :=
  crcBit (crcBit (crcBit (crcBit (crcBit (crcBit (crcBit (crcBit r (b.getLsbD 7)) (b.getLsbD 6)) (b.getLsbD 5)) (b.getLsbD 4))
    (b.getLsbD 3)) (b.getLsbD 2)) (b.getLsbD 1)) (b.getLsbD 0)

/-- The check byte over the bytes of one direction. -/
def checkByte (bytes : List Byte) : Byte := bytes.foldl crcByte 0xFF

/-! ## Addresses (spec/09 R168, spec/00 section 3) -/

def masterOffset : Master → Nat
  | .gateway => 0
  | .leftPanel => 1
  | .rightPanel => 2

/-- The base address that ADS1 and ADS0 select. -/
def baseAddress (ads : BitVec 2) : Nat := 0x50 + 4 * ads.toNat

/-- The address byte of a master in a direction: bit 0 is 1 for a read. -/
def addressByte (ads : BitVec 2) (m : Master) (read : Bool) : Byte :=
  byteOf (2 * (baseAddress ads + masterOffset m) + if read then 1 else 0)

/-- The master and direction of an address byte, where it carries one of the part's addresses. -/
def addressed (ads : BitVec 2) (addr : Byte) : Option (Master × Bool) :=
  let seven := addr.toNat / 2
  let read := addr.toNat % 2 == 1
  if seven = baseAddress ads then some (.gateway, read)
  else if seven = baseAddress ads + 1 then some (.leftPanel, read)
  else if seven = baseAddress ads + 2 then some (.rightPanel, read)
  else none

/-! ## Fields (spec/09 R183) -/

/-- A two-byte quantity, high byte first. -/
def twoBytes (n : Nat) : List Byte := [byteOf (n / 256), byteOf n]

/-- A two-byte quantity in two's complement, high byte first. -/
def signedBytes (v : Int) : List Byte := twoBytes (BitVec.ofInt 16 v).toNat

/-- The two-byte quantity that two data bytes carry. -/
def halfOf (hi lo : Byte) : Half := hi ++ lo

/-- A field that may be absent: a presence byte, then the value (spec/09 R183). -/
def optional {α : Type} (f : α → List Byte) : Option α → List Byte
  | none => [0]
  | some v => 1 :: f v

def cellBytes (c : CellSet) : List Byte := twoBytes c.toNat

/-- Two values whose chapter lists the first one first. -/
def firstOr (isFirst : Bool) : Byte := if isFirst then 0 else 1

def seatByte (x : Seat) : Byte := byteOf (seatCode x)

/-- A seat that may be NONE, where the rule codes NONE as 2 (spec/09 R174, spec/10 R188). -/
def seatOrNone : Option Seat → Byte
  | some x => seatByte x
  | none => 2

/-- spec/00 section 4.5's order. -/
def resultByte : ResultCode → Byte
  | .ok => 0
  | .clamped => 1
  | .denied => 2
  | .unknown => 3
  | .length => 4
  | .check => 5
  | .badField => 6
  | .readOnly => 7
  | .busy => 8
  | .vacant => 9
  | .uncorrectable => 10

def originByte : Origin → Byte
  | .gateway => 0
  | .leftPanel => 1
  | .rightPanel => 2
  | .device => 3

def occupancyByte : Occupancy → Byte
  | .occupied => 0
  | .vacating => 1
  | .standby => 2
  | .empty => 3

def zoneStateByte : ZoneState → Byte
  | .off => 0
  | .heating => 1
  | .limit => 2
  | .degraded => 3
  | .fault => 4
  | .standby => 5

def fanStateByte : FanState → Byte
  | .off => 0
  | .run => 1
  | .retryWait => 2
  | .fault => 3

def valveByte : ValveState → Byte
  | .hold => 0
  | .fill => 1
  | .vent => 2

def cursorStateByte : CursorState → Byte
  | .idle => 0
  | .running => 1
  | .paused => 2
  | .ending => 3
  | .fault => 4

/-- The phase as it is listed; NONE is an absent value (notes/assumptions/17.md). -/
def phaseByte : Phase → Byte
  | .none => 0
  | .vent => 1
  | .fillWait => 2
  | .filling => 3
  | .dwell => 4

def faultByte : FaultCode → Byte
  | .none => 0
  | .store => 1
  | .blank => 2
  | .leak => 3
  | .overpressure => 4
  | .nest => 5
  | .loop => 6

def causeByte : EndCause → Byte
  | .none => 0
  | .ended => 1
  | .expired => 2
  | .stopped => 3
  | .standby => 4

def bandByte : Band → Byte
  | .normal => 0
  | .shed => 1
  | .stop => 2

def statusByte : PassStatus → Byte
  | .full => 0
  | .limited => 1
  | .starved => 2

def fillStateByte : FillState → Byte
  | .idle => 0
  | .switching => 1
  | .filling => 2

def positionByte : SelPos → Byte
  | .neutral => 0
  | .left => 1
  | .right => 2

def requesterByte : Requester → Byte
  | .massage .left => 0
  | .massage .right => 1
  | .support .left => 2
  | .support .right => 3

def rightByte : Right → Byte
  | .none => 0
  | .read => 1
  | .write => 2
  | .readWrite => 3

def heatCauseByte : HeatCause → Byte
  | .sensor => 0
  | .openLoad => 1
  | .overcurrent => 2

/-- The outcome of a fill as spec/05 lists the endings. -/
def outcomeByte : CellOutcome → Byte
  | .leak => 1
  | .overpressure => 3

/-! ## READ SEAT (spec/01 R17) -/

/-- The occupancy timer with its remaining whole seconds (notes/assumptions/23.md). -/
def occTimerBytes : OccTimer → List Byte
  | .stopped => 0 :: twoBytes 0
  | .vacancy t => 1 :: twoBytes (t / 1000)
  | .clear t => 2 :: twoBytes (t / 1000)

def generalPart (s : State) (x : Seat) : List Byte :=
  let r := s.seat x
  [occupancyByte r.occupancy, firstOr r.debounced, byteOf (s.param (overrideNumber x))] ++ occTimerBytes r.timer ++
    [byteOf r.underfill]

def zoneBytes (s : State) (z : ZoneId) : List Byte :=
  let c := s.zone z
  [byteOf (s.level z).value, originByte (s.level z).origin, zoneStateByte c.state] ++ optional signedBytes c.temp ++
    [byteOf c.request, byteOf c.grant, byteOf c.minutes, byteOf c.faults]

def heatingPart (s : State) (x : Seat) : List Byte := (seatZones x).flatMap (zoneBytes s)

def fanBytes (s : State) (f : FanId) : List Byte :=
  let c := s.fan f
  [byteOf (s.fanLevel f).value, originByte (s.fanLevel f).origin, byteOf c.granted, fanStateByte c.state, byteOf c.retries]

def cellFields (s : State) (x : Seat) (c : HoldCell) : List Byte :=
  let v := s.setpoint x c
  twoBytes v.value ++
    [originByte v.origin, firstOr !((s.regulator x).marks.get c), valveByte (valveState s.pneu x (cellNumber c))]

def airPart (s : State) (x : Seat) : List Byte :=
  (seatFans x).flatMap (fanBytes s) ++ holdCells.flatMap (cellFields s x)

def cursorPart (s : State) (x : Seat) : List Byte :=
  let c := s.cursor x
  [cursorStateByte c.state] ++ optional (fun p => [phaseByte p]) (if c.phase = .none then none else some c.phase) ++
    optional (fun n => [byteOf n]) c.program ++ optional (fun (i : StepIndex) => [i]) c.step ++ twoBytes c.seconds ++
    [byteOf c.intensity, byteOf c.speed, originByte c.origin] ++
    optional (fun f => [faultByte f]) (if c.fault = .none then none else some c.fault)

def seatPart (s : State) (x : Seat) : Nat → List Byte
  | 0 => generalPart s x
  | 1 => heatingPart s x
  | 2 => airPart s x
  | _ => cursorPart s x

/-! ## READ BUDGET (spec/04 R81) -/

/-- The refresh timer in units of 100 ms, rounded up. -/
def refreshUnits (ms : Nat) : Nat := (ms + 99) / 100

def ceilingPart (s : State) : List Byte :=
  let b := s.budget
  twoBytes b.ceiling ++ optional (fun t => twoBytes (refreshUnits t)) b.refresh ++
    [bandByte s.supply.band, byteOf s.supply.reading] ++
    optional twoBytes (if s.supply.band = .normal then none else some s.bandCap) ++
    [byteOf b.derate, byteOf b.overdrawRun] ++ twoBytes s.supply.measured ++ twoBytes b.peak ++ twoBytes b.cEff

def resultPart (a : Allocation) : List Byte :=
  [statusByte a.status, firstOr a.demandSeen, firstOr a.permitted, byteOf a.fanCap] ++
    (a.fanGrants.left.toList ++ a.fanGrants.right.toList).map byteOf ++ [byteOf a.dutyCap] ++
    (a.grants.left.toList ++ a.grants.right.toList).map byteOf ++ twoBytes a.heater ++ twoBytes a.total

/-! ## READ DIAGNOSTICS (spec/06 R130, spec/05 R112) -/

def storePart (l : ErrorLog) : List Byte :=
  [byteOf l.count] ++ optional (fun (i : StepIndex) => [i]) l.firstCorrectable ++
    optional (fun (i : StepIndex) => [i]) l.firstUncorrectable ++ [firstOr !l.flag, firstOr !l.reported]

/-- The time since FILLING began, in whole units of 100 ms; 0 in SWITCHING. DESIGN CHOICE (notes/assumptions/20.md): a unit that
has begun does not count. -/
def elapsedUnits (h : Holder) : Nat := if h.p0.isSome then min 255 (h.elapsed / 100) else 0

def holderBytes (h : Holder) : List Byte :=
  [requesterByte h.entry.requester] ++ cellBytes h.entry.cells ++ twoBytes h.entry.target ++ [firstOr h.entry.resumed] ++
    optional twoBytes h.p0 ++ [byteOf (elapsedUnits h)]

def selectorBytes : Selector → List Byte
  | .atRest p => [positionByte p]
  | .moving p t => [3, positionByte p] ++ twoBytes t

def entryBytes (p : Pneumatic) (e : Entry) : List Byte :=
  [requesterByte e.requester] ++ cellBytes e.cells ++ twoBytes e.target ++ [firstOr e.resumed, firstOr (eligible p e)]

def VentOwner.seat? : VentOwner → Option Seat
  | .requester r => some r.seat
  | .relief x => some x
  | .reset => none

def ventBytes (v : VentOp) : List Byte :=
  [byteOf (ventOwnerCode v.owner), seatOrNone (VentOwner.seat? v.owner)] ++ cellBytes v.cells ++ twoBytes v.left

def cellRange : List Nat := [0, 1, 2, 3, 4, 5, 6, 7, 8, 9, 10, 11, 12, 13, 14, 15]

def pneumaticPart (p : Pneumatic) : List Byte :=
  [fillStateByte p.fillState] ++ optional holderBytes p.holder ++ [firstOr p.compressor] ++ selectorBytes p.selector ++
    [byteOf p.rotation] ++ optional (fun x => [seatByte x]) p.lastSeat ++ [byteOf p.queue.length] ++
    p.queue.flatMap (entryBytes p) ++ twoBytes p.manifold.left ++ twoBytes p.manifold.right ++
    cellRange.map (fun k => valveByte (valveState p .left k)) ++ cellRange.map (fun k => valveByte (valveState p .right k)) ++
    p.vents.flatMap ventBytes

/-! ## The store's reads (spec/06 R119, R127) -/

def stepBytes (f : StepFields) : List Byte :=
  cellBytes f.vent ++ cellBytes f.fill ++ twoBytes f.target ++ [byteOf f.dwell] ++
    optional (fun (i : StepIndex) => [i]) f.next ++
    optional (fun (r : Repetition) => [r.target, byteOf r.count]) f.again

/-- The result and fields of READ STEP (spec/06 R119). -/
def stepAnswer : StoreAnswer → List Byte
  | .rom f => [resultByte .ok, 0, 1] ++ stepBytes f
  | .ram corrected (some f) => [resultByte .ok, 1, firstOr !corrected, 1] ++ stepBytes f
  | .ram corrected none => [resultByte .ok, 1, firstOr !corrected, 0]
  | .uncorrectable => [resultByte .uncorrectable]

def entryAnswer (n : Nat) (e : DirEntry) : List Byte :=
  [resultByte .ok, firstOr e.valid, e.first, byteOf e.minutes, firstOr (decide (n < 4))]

/-! ## Access, results and notices (spec/09 R174, R180; spec/10 R188, R189) -/

def rightsBytes (r : Rights) : List Byte :=
  [rightByte r.leftSeat, rightByte r.rightSeat, rightByte r.store, rightByte r.budget, rightByte r.config, rightByte r.access]

def accessBytes (a : PerMaster Rights) : List Byte :=
  rightsBytes a.gateway ++ rightsBytes a.leftPanel ++ rightsBytes a.rightPanel

/-- A last-result record as READ RESULT returns it (spec/09 R174). -/
def lastResultAnswer (r : LastResult) : List Byte :=
  [resultByte .ok, resultByte r.result] ++ optional (fun (c : Byte) => [c]) r.command ++ [seatOrNone r.seat]

def changedBytes : Changed → List Byte
  | .zone z => [0, byteOf (zoneNumber z)]
  | .fan f => [1, byteOf (fanNumber f)]
  | .cell c => [2, byteOf (cellNumber c)]
  | .cursor => [3]
  | .wholeSeat => [4]

/-- The cause of BUDGET LIMITED: HEATER CAP, PUMP REFUSED or both. -/
def limitedByte (heaterCap pumpRefused : Bool) : Byte := if heaterCap then (if pumpRefused then 2 else 0) else 1

/-- The detail fields of a notice (spec/10 R184). DEDUCED (notes/assumptions/21.md): OCCUPANCY sends the code that READ SEAT
gives the seat's state, and AIR FAULT the massage fault's code as it is listed, with no presence byte. -/
def detailBytes : Detail → List Byte
  | .nothing => []
  | .supply now was => [bandByte now, bandByte was]
  | .overdraw d m peak => [byteOf d] ++ twoBytes m ++ twoBytes peak
  | .lease c => twoBytes c
  | .heatFault z cause => [byteOf (zoneNumber z), heatCauseByte cause]
  | .fanFault f => [byteOf (fanNumber f)]
  | .massageFault code i => [0, faultByte code, i]
  | .supportFault c o => [1, byteOf (cellNumber c), outcomeByte o]
  | .storeError correctable i => [firstOr correctable, i]
  | .changed what => changedBytes what
  | .stepDown z level => [byteOf (zoneNumber z), byteOf level]
  | .programEnd n cause => [byteOf n, causeByte cause]
  | .occupancy o => [occupancyByte o]
  | .limited h p d => [limitedByte h p, byteOf d]

/-- A pair with kind, seat and detail; kinds count from 1 in priority order (spec/10 R188). -/
def noticeBytes (n : Notice) : List Byte := [byteOf (n.kind.bit + 1), seatOrNone n.seat] ++ detailBytes n.detail

/-- TAKE NOTICE's response fields; the kind NONE is 0 (spec/10 R188). -/
def takenNoticeBytes : Option Notice → List Byte
  | none => [0]
  | some n => noticeBytes n

def noticesBytes (b : NoticeBox) : List Byte :=
  twoBytes b.mask.toNat ++ [byteOf b.pending.length] ++ b.pending.flatMap noticeBytes

/-! ## Responses (spec/09 section 9.7.1) -/

/-- The response to a master: its length, result and fields, and the check byte over the read address and all of them. -/
def frameResponse (ads : BitVec 2) (m : Master) (answer : List Byte) : List Byte :=
  let head := byteOf answer.length :: answer
  head ++ [checkByte (addressByte ads m true :: head)]

end Sys2Proof.Machine
end

