-- ==== Sys2Proof/Machine/BusOps.lean ====
section
/-! DEFINITION. What the bus interface does around a command of any owner (spec/09): the last-result record of a write, the
response of a read, and the whole transaction that a command row of the table stands for. -/
namespace Sys2Proof.Machine

/-- An owner's result written into the master's last-result record (spec/09 R171, R175). -/
def recordResult (m : Master) (code : Byte) (seat : Option Seat) (r : State × ResultCode) : State :=
  { r.1 with results := r.1.results.set m { result := r.2, command := some code, seat := seat } }

/-- A refusal by the owner: nothing changes. -/
def refuse (r : ResultCode) (s : State) : State × ResultCode := (s, r)

/-- The bus-low timer as a condition or byte on the bus leaves it: SCL and SDA have been released in it, and may be low from there
on (spec/09 R177). DESIGN CHOICE (notes/assumptions/13.md): no command of the table says that a line goes low or is released between
two bus events. -/
def State.freshLow (s : State) : Option BusLow := some { time := 0, limit := s.busLowLimit }

/-- The bus in IDLE within a transaction that does not reach the part: a line may still be low (spec/09 R169, R177). -/
def State.passedOver (s : State) : State := { s with bus := { BusRecord.idle with low := s.freshLow } }

/-- A read's answer becomes the response, formed whole, of a transaction that goes on (spec/09 R172). -/
def respond (m : Master) (r : State × List Byte) : State :=
  { r.1 with
    bus := { BusRecord.idle with
      phase := .sending, master := some m, response := frameResponse r.1.ads m r.2, ack := true, time := r.1.bus.time
      low := r.1.freshLow } }

/-- A read's refusal: its result code alone (spec/09 R172, R183). -/
def refusal (r : ResultCode) (s : State) : State × List Byte := (s, [resultByte r])

/-- A read's answer with result OK. -/
def answer (fields : List Byte) (s : State) : State × List Byte := (s, resultByte .ok :: fields)

/-- A write command's whole transaction, START to STOP: it discards a frame in progress and leaves the interface IDLE
(spec/09 R169, R170). Before the first scan the part acknowledges nothing and takes nothing (R168; notes/assumptions/4.md). -/
def writeRow (f : State → State) (s : State) : State :=
  if s.scanned then f { s with bus := .idle } else { s with bus := .idle }

/-- A read command's transaction up to its response (spec/09 R172; notes/assumptions/4.md); no STOP has ended it. -/
def readRow (m : Master) (f : State → State × List Byte) (s : State) : State :=
  if s.scanned then respond m (f { s with bus := .idle }) else s.passedOver

end Sys2Proof.Machine
end

