-- ==== Sys2Proof/Machine/AccessCommands.lean ====
section
/-! DEFINITION. The commands of the bus interface and the notice unit (spec/09, spec/10): WRITE ACCESS, READ ACCESS,
READ RESULT, SET NOTICE MASK, TAKE NOTICE and READ NOTICES. -/
namespace Sys2Proof.Machine

/-! ## The access table (spec/09 R179, R180) -/

def storeRight (who : Master) (r : Region) (v : Right) (s : State) : State :=
  { s with access := s.access.set who ((s.access.get who).set r v) }

def ownWriteAccess (m : Master) (master region right : Byte) (s : State) : State × ResultCode :=
  if s.mayWrite m .access then
    match masterOfCode master.toNat, regionOfCode region.toNat, rightOfCode right.toNat with
    | some who, some r, some v =>
      if who = .gateway ∧ r = .access then refuse .readOnly s else (storeRight who r v s, .ok)
    | _, _, _ => refuse .badField s
  else refuse .denied s

def takeWriteAccess (m : Master) (master region right : Byte) (s : State) : State :=
  recordResult m 0x50 none (ownWriteAccess m master region right s)

def execWriteAccess (m : Master) (master region right : Byte) (s : State) : Host.Outcome State Fault Refusal :=
  taken (writeRow (takeWriteAccess m master region right)) s

def answerReadAccess (m : Master) (s : State) : State × List Byte :=
  if s.mayRead m .access then answer (accessBytes s.access) s else refusal .denied s

def execReadAccess (m : Master) (s : State) : Host.Outcome State Fault Refusal := taken (readRow m (answerReadAccess m)) s

/-! ## READ RESULT (spec/09 R174) -/

def answerReadResult (m : Master) (s : State) : State × List Byte := (s, lastResultAnswer (s.results.get m))

def execReadResult (m : Master) (s : State) : Host.Outcome State Fault Refusal := taken (readRow m (answerReadResult m)) s

/-! ## Notices (spec/10 R186, R188, R189) -/

def storeMask (m : Master) (mask : Half) (s : State) : State :=
  s.modNotices m fun b => NoticeBox.judged { b with mask := mask }

def ownSetMask (m : Master) (mask : Half) (s : State) : State × ResultCode :=
  if mask &&& 0xE000 = 0 then (storeMask m mask s, .ok) else refuse .badField s

def takeSetMask (m : Master) (mask : Half) (s : State) : State := recordResult m 0x60 none (ownSetMask m mask s)

def execSetNoticeMask (m : Master) (mask : Half) (s : State) : Host.Outcome State Fault Refusal :=
  taken (writeRow (takeSetMask m mask)) s

/-- The pair that TAKE NOTICE chooses: the first unmasked one, the set standing in the order of choice (spec/10 R188). -/
def NoticeBox.chosen (b : NoticeBox) : Option Notice := b.pending.find? fun n => !masked b.mask n.kind

/-- The set without the chosen pair, its line re-judged. -/
def NoticeBox.without (n : Notice) (b : NoticeBox) : NoticeBox :=
  NoticeBox.judged { b with pending := b.pending.filter fun p => p.rank != n.rank }

/-- A pair taken out of a master's set. -/
def removeNotice (m : Master) (n : Notice) (s : State) : State := s.modNotices m (NoticeBox.without n)

def answerTakeNotice (m : Master) (s : State) : State × List Byte :=
  match (s.notices.get m).chosen with
  | none => answer (takenNoticeBytes none) s
  | some n => answer (takenNoticeBytes (some n)) (removeNotice m n s)

def execTakeNotice (m : Master) (s : State) : Host.Outcome State Fault Refusal := taken (readRow m (answerTakeNotice m)) s

def answerReadNotices (m : Master) (s : State) : State × List Byte := answer (noticesBytes (s.notices.get m)) s

def execReadNotices (m : Master) (s : State) : Host.Outcome State Fault Refusal := taken (readRow m (answerReadNotices m)) s

end Sys2Proof.Machine
end

