-- ==== Sys2Proof/Machine/BudgetCommands.lean ====
section
/-! DEFINITION. The budget allocator's commands (spec/04): SET CEILING and READ BUDGET. -/
namespace Sys2Proof.Machine

/-- The refresh timer as an accepted SET CEILING starts it; none where refresh is off (spec/04 R59). -/
def State.freshRefresh (s : State) : Option Nat := if s.refreshTime = 0 then none else some (1000 * s.refreshTime)

/-- An accepted SET CEILING (spec/04 R59). -/
def storeCeiling (c : Nat) (s : State) : State :=
  runPass (recomputeCeiling (s.modBudget fun b => { b with ceiling := c, refresh := s.freshRefresh }))

def ownSetCeiling (m : Master) (ceiling : Half) (s : State) : State × ResultCode :=
  if s.mayWrite m .budget then
    (storeCeiling (min 600 ceiling.toNat) s, clampResult ceiling.toNat (min 600 ceiling.toNat))
  else refuse .denied s

def takeSetCeiling (m : Master) (ceiling : Half) (s : State) : State := recordResult m 0x20 none (ownSetCeiling m ceiling s)

def execSetCeiling (m : Master) (ceiling : Half) (s : State) : Host.Outcome State Fault Refusal :=
  taken (writeRow (takeSetCeiling m ceiling)) s

def budgetPart (s : State) : Nat → List Byte
  | 0 => ceilingPart s
  | _ => resultPart s.budget.result

def answerReadBudget (m : Master) (part : Byte) (s : State) : State × List Byte :=
  if s.mayRead m .budget then
    if 1 < part.toNat then refusal .badField s else answer (budgetPart s part.toNat) s
  else refusal .denied s

def execReadBudget (m : Master) (part : Byte) (s : State) : Host.Outcome State Fault Refusal :=
  taken (readRow m (answerReadBudget m part)) s

end Sys2Proof.Machine
end

