-- ==== Sys2Proof/Machine/HeatingEvents.lean ====
section
/-! DEFINITION. The events of the heating controller (spec/02): SCAN_COMPLETION, ZONE_FRAME_START, ON_WINDOW_END, OVERCURRENT
and STEP_DOWN, and the steps that a write of the step-down time makes. -/
namespace Sys2Proof.Machine

/-! ## The scan (spec/02 R22) -/

def storeReading (c : ZoneChannel) (v : Int) : ZoneChannel := { c with temp := validReading v }

def storeReadings (z : Five ZoneChannel) (v : Five Int) : Five ZoneChannel :=
  ⟨storeReading z.cushion v.cushion, storeReading z.backrest v.backrest, storeReading z.neck v.neck,
    storeReading z.legRest v.legRest, storeReading z.armrest v.armrest⟩

/-- Step 1: the new readings, all of them (spec/02 R22, R23). -/
def storeScan (readings : PerSeat (Five Int)) (s : State) : State :=
  { s with zones := ⟨storeReadings s.zones.left readings.left, storeReadings s.zones.right readings.right⟩ }

/-- Step 2: each zone acts on its reading (spec/02 R22). DESIGN CHOICE (notes/assumptions/39.md): in the order of the zones'
numbers, so that where several zones of a seat enter DEGRADED the one HEAT FAULT pair names the last of them. -/
def scanZones (s : State) : State := allZones.foldl (fun t z => scanZone z t) s

/-- The mean of `count` readings with this sum, rounded down; a free value where there is no reading. -/
def meanOf (sum count : Nat) : Nat := if count = 0 then Config.meanOfNoReadings sum else sum / count

/-- M: the mean of the interval, rounded down and saturating (spec/04 R64); the mean of the next one starts. -/
def takeMean (itotSum itotCount : Nat) (s : State) : State :=
  { s with
    supply := { s.supply with
      measured := min 1000 (meanOf (s.supply.itotSum + itotSum) (s.supply.itotCount + itotCount))
      itotSum := 0, itotCount := 0 } }

/-- The overdraw run that a scan finds: a derate step that a CLEAR DIAGNOSTICS of this moment came before is still due
(spec/04 R67; notes/assumptions/47.md). -/
def Budget.runFound (b : Budget) : Nat := if b.stepPeak.isSome then 2 else b.overdrawRun

/-- The peak that a scan compares with (spec/04 R65, R67). -/
def Budget.peakFound (b : Budget) : Nat := b.stepPeak.getD b.peak

/-- The overdraw check, with its derate step (spec/04 R65, R66). -/
def checkOverdraw (s : State) : State :=
  let run := s.budget.runFound
  let peak := s.budget.peakFound
  let checked (n : Nat) : State := s.modBudget fun b => { b with overdrawRun := n, stepPeak := none }
  if peak + s.overdrawMargin < s.supply.measured then
    if run < 2 then checked (run + 1)
    else
      let d := min 3 (s.budget.derate + 1)
      raiseDevice .overdraw (.overdraw d s.supply.measured peak)
        (recomputeCeiling ((checked 0).modBudget fun b => { b with derate := d }))
  else checked 0

/-- The scan's own pass: the peak starts at its total (spec/04 R65). -/
def scanPass (s : State) : State :=
  let t := passCore s
  takePermission (t.modBudget fun b => { b with peak := b.result.total })

/-- SCAN_COMPLETION (spec/02 R22, R24, spec/04 R64 to R66, spec/09 R168). -/
def completeScan (readings : PerSeat (Five Int)) (itotSum itotCount : Nat) (s : State) : State :=
  scanPass (checkOverdraw (takeMean itotSum itotCount (scanZones
    (storeScan readings { s with scanned := true, scanTimer := s.scanPeriod }))))

def execScanCompletion (readings : PerSeat (Five Int)) (itotSum itotCount : Nat) (s : State) :
    Host.Outcome State Fault Refusal :=
  taken (completeScan readings itotSum itotCount) s

/-! ## The window -/

/-- The length of a window that runs through its whole zone frame and into the next (spec/02 R36). -/
def wholeFrame : Nat := 100

/-- The window ends with its zone frame: it is one of 100, or its gate has been on for the whole frame and a grant lowered at this
moment has cut it (spec/02 R36, R37). -/
def ZoneChannel.endsWithFrame (c : ZoneChannel) : Bool := decide (c.window = wholeFrame) || decide (c.onSlots = wholeFrame)

/-- The window opens at the zone's frame start (spec/02 R36, R38). A window that ends with the frame before, at this moment, may be
judged after it (R31): the new window leaves its judgement due. -/
def openWindow (c : ZoneChannel) : ZoneChannel :=
  { c with
    window := c.grant, gate := decide (0 < c.grant), onSlots := 0, unjudged := decide (0 < c.grant)
    carried := c.unjudged && c.endsWithFrame }

/-- ZONE_FRAME_START (spec/02 R36): the frame counter stands at slot 10·z. -/
def startZoneFrame (z : ZoneId) (s : State) : State :=
  { (s.setZone z (openWindow (s.zone z))) with frameSlot := 10 * zoneNumber z, frameMs := 0 }

def execZoneFrameStart (z : ZoneId) (s : State) : Host.Outcome State Fault Refusal := taken (startZoneFrame z) s

/-- A window awaits its judgement: the present frame's, or the whole frame's before it. -/
def ZoneChannel.awaitsJudgement (c : ZoneChannel) : Bool := c.carried || c.unjudged

/-- The window that ends. One of the whole frame before this one leaves the new window as it runs; one of the present frame
turns the gate off, but a window of 100, which keeps it on into the next frame (spec/02 R36). -/
def closeWindow (c : ZoneChannel) : ZoneChannel :=
  if c.carried then { c with carried := false }
  else { c with gate := c.gate && decide (c.window = wholeFrame), unjudged := false }

/-- ON_WINDOW_END (spec/02 R31, R33, R36): the window ends and is judged. -/
def judgeWindow (z : ZoneId) (current : Nat) (s : State) : State :=
  let c := s.zone z
  if c.awaitsJudgement then
    let closed := closeWindow c
    if lowWindow current (s.rated z) then
      let low := s.setZone z { closed with openLoad := min 3 (c.openLoad + 1) }
      if 3 ≤ c.openLoad + 1 then runPass (latchZone z .openLoad low) else low
    else s.setZone z { closed with openLoad := 0 }
  else s

def execOnWindowEnd (z : ZoneId) (current : Nat) (s : State) : Host.Outcome State Fault Refusal :=
  taken (judgeWindow z current) s

/-- OVERCURRENT (spec/02 R32, R33). -/
def compareCurrent (z : ZoneId) (current : Nat) (s : State) : State :=
  if (s.zone z).gate && overCurrent current (s.rated z) then runPass (latchZone z .overcurrent s) else s

def execOvercurrent (z : ZoneId) (current : Nat) (s : State) : Host.Outcome State Fault Refusal :=
  taken (compareCurrent z current) s

/-! ## Auto step-down (spec/02 section 2.10) -/

/-- The zone's level is one that steps down. -/
def highLevel (level : Nat) : Bool := level == 4 || level == 5

/-- The zone counts time toward step-down (spec/02 R40). -/
def countsDown (s : State) (z : ZoneId) : Bool :=
  highLevel (s.level z).value && (s.zone z).state.heats && decide (0 < s.stepDownTime)

/-- The zone steps down at once (spec/02 R41). -/
def stepZoneDown (z : ZoneId) (s : State) : State :=
  let level := (s.level z).value - 1
  let stored := s.setLevel z { value := level, origin := .device }
  let evaluated := evaluateZone z (stored.setZone z (restartStepDown (s.zone z)))
  runPass (raiseSeat .stepDown z.seat (.stepDown z level) none evaluated)

/-- The zone's minutes stand at the step-down time (spec/02 R41): not so after a SET ZONE taken first (spec/01 R7). -/
def minutesReached (s : State) (z : ZoneId) : Bool := decide (s.stepDownTime ≤ (s.zone z).minutes)

/-- A step-down of the zone is due: with step-down on, a zone at level 4 or 5 has its minutes below the step-down time (spec/02 R41,
R42). DEDUCED (notes/assumptions/49.md): whatever its state, so that a fault latch or the entry into STANDBY of the moment in which the
minutes reach that time, taken first, does not keep the zone from its step. -/
def stepDownDue (s : State) (z : ZoneId) : Bool :=
  highLevel (s.level z).value && decide (0 < s.stepDownTime) && minutesReached s z

/-- STEP_DOWN (spec/01 R7, spec/02 R41): the minutes of a zone reach the step-down time. -/
def reachStepDown (z : ZoneId) (s : State) : State := if stepDownDue s z then stepZoneDown z s else s

def execStepDown (z : ZoneId) (s : State) : Host.Outcome State Fault Refusal := taken (reachStepDown z) s

/-- A write of the step-down time at one zone (spec/02 R42). -/
def stepDownWritten (z : ZoneId) (s : State) : State :=
  if s.stepDownTime = 0 then s.setZone z (restartStepDown (s.zone z))
  else if stepDownDue s z then stepZoneDown z s
  else s

end Sys2Proof.Machine
end

