-- ==== Sys2Proof/Machine/Occupancy.lean ====
section
/-! DEFINITION. The occupancy state machine of a seat (spec/01 section 1.3) and its five events and effects at all blocks:
OCCUPANCY_INPUT_CHANGE, DEBOUNCE_EXPIRY, VACANCY_DELAY_EXPIRY, CLEAR_TIME_EXPIRY, and the override's part of a parameter write. -/
namespace Sys2Proof.Machine

/-- OCCUPANCY for a seat (spec/01 R12 to R14). -/
def raiseOccupancy (x : Seat) (now : Occupancy) (s : State) : State :=
  raiseSeat .occupancy x (.occupancy now) none s

/-- The occupancy state and timer of a seat. -/
def setOccupancy (x : Seat) (now : Occupancy) (t : OccTimer) (s : State) : State :=
  s.modSeat x fun r => { r with occupancy := now, timer := t }

/-- The seat's zones and fans act on its occupancy state (spec/02 R43, spec/03 R54). -/
def occupyLoads (x : Seat) (s : State) : State := rederiveSeatFans x (evaluateSeatZones x s)

/-- An OCCUPIED seat enters VACATING (spec/01 R11). -/
def enterVacating (x : Seat) (s : State) : State :=
  runPass (setOccupancy x .vacating (.vacancy s.vacancyDelay) s)

/-- A VACATING, STANDBY or EMPTY seat enters OCCUPIED (spec/01 R11, R13). -/
def enterOccupied (x : Seat) (s : State) : State :=
  let now := setOccupancy x .occupied .stopped s
  match (s.seat x).occupancy with
  | .occupied => s
  | .vacating => runPass now
  | .standby => runPass (occupyLoads x (raiseOccupancy x .occupied now))
  | .empty => runPass (selectCell x (occupyLoads x (raiseOccupancy x .occupied now)))

/-- The cursor at its seat's entry into STANDBY (spec/07 R157). -/
def standbyCursor (x : Seat) (s : State) : State :=
  match (s.cursor x).state with
  | .running | .paused => enterEnding x .standby s
  | .idle | .ending | .fault => s

/-- A VACATING seat enters STANDBY (spec/01 R12). -/
def enterStandby (x : Seat) (s : State) : State :=
  let now := setOccupancy x .standby (.clear s.clearTime) s
  runPass (raiseOccupancy x .standby (standbyCursor x (occupyLoads x now)))

/-- The seat record at entry to EMPTY: settings 0, origins DEVICE (spec/01 R14). -/
def SeatRecord.emptied (r : SeatRecord) : SeatRecord :=
  { r with
    occupancy := .empty, timer := .stopped, levels := Five.all .zero, fanLevels := ⟨.zero, .zero⟩
    setpoints := Four.all .zero }

/-- The zones of a seat with their step-down counts at 0 (spec/02 R40). -/
def restartSeatStepDown (x : Seat) (s : State) : State :=
  { s with zones := s.zones.set x ((s.zones.get x).map restartStepDown) }

/-- A STANDBY seat enters EMPTY (spec/01 R14). -/
def enterEmpty (x : Seat) (s : State) : State :=
  let record := (s.modSeat x SeatRecord.emptied).modCursor x fun c => { c with origin := .device }
  let loads := emptySeatFans x (evaluateSeatZones x (restartSeatStepDown x record))
  runPass (raiseOccupancy x .empty (emptyRegulator x loads))

/-- The debounced occupancy changes: an event of the state machine while the override is OFF (spec/01 R9). -/
def debouncedChange (x : Seat) (occupied : Bool) (s : State) : State :=
  if s.override x then s
  else if occupied then enterOccupied x s
  else if (s.seat x).occupancy = .occupied then enterVacating x s
  else s

/-- A write of the override takes effect where it changes it (spec/01 R10). -/
def overrideWritten (x : Seat) (was : Bool) (s : State) : State :=
  if s.override x = was then s
  else if s.override x then enterOccupied x s
  else if (s.seat x).occupancy = .occupied ∧ (s.seat x).debounced = false then enterVacating x s
  else s

/-! ## The commands -/

/-- OCCUPANCY_INPUT_CHANGE (spec/01 R9): each change restarts the 2 s timer. -/
def changeInput (x : Seat) (occupied : Bool) (s : State) : State :=
  if (s.seat x).rawLevel = occupied then s
  else s.modSeat x fun r => { r with rawLevel := occupied, debounceTimer := some 2000 }

def execOccupancyInputChange (x : Seat) (occupied : Bool) (s : State) : Host.Outcome State Fault Refusal :=
  taken (changeInput x occupied) s

/-- DEBOUNCE_EXPIRY (spec/01 R9): the 2 s have run out, which a change of the input taken first prevents. -/
def expireDebounce (x : Seat) (s : State) : State :=
  let r := s.seat x
  if r.debounceTimer ≠ some 0 then s
  else
    let t := s.modSeat x fun r => { r with debounceTimer := none, debounced := r.rawLevel }
    if r.rawLevel = r.debounced then t else debouncedChange x r.rawLevel t

def execDebounceExpiry (x : Seat) (s : State) : Host.Outcome State Fault Refusal := taken (expireDebounce x) s

/-- VACANCY_DELAY_EXPIRY (spec/01 R11, R12). -/
def expireVacancy (x : Seat) (s : State) : State :=
  match (s.seat x).occupancy, (s.seat x).timer with
  | .vacating, .vacancy 0 => enterStandby x s
  | _, _ => s

def execVacancyDelayExpiry (x : Seat) (s : State) : Host.Outcome State Fault Refusal := taken (expireVacancy x) s

/-- CLEAR_TIME_EXPIRY (spec/01 R14). -/
def expireClear (x : Seat) (s : State) : State :=
  match (s.seat x).occupancy, (s.seat x).timer with
  | .standby, .clear 0 => enterEmpty x s
  | _, _ => s

def execClearTimeExpiry (x : Seat) (s : State) : Host.Outcome State Fault Refusal := taken (expireClear x) s

end Sys2Proof.Machine
end

