-- ==== Sys2Proof/Machine/Parameters.lean ====
section
/-! DEFINITION. WRITE PARAMETER and READ PARAMETER (spec/09 R181, R182), with what each parameter's owner does at a write. -/
namespace Sys2Proof.Machine

/-- A write of a zone's surface limit (spec/02 R39). -/
def limitWritten (z : ZoneId) (s : State) : State :=
  if (s.zone z).state.isClosedLoop then
    let t := evaluateZone z s
    if (t.zone z).state = (s.zone z).state then t else runPass t
  else s

/-- A write of the step-down time at all ten zones (spec/02 R42). -/
def stepDownTimeWritten (s : State) : State := allZones.foldl (fun t z => stepDownWritten z t) s

/-- A write of the ceiling refresh time (spec/04 R61). -/
def refreshTimeWritten (s : State) : State :=
  if s.refreshTime = 0 then s.modBudget fun b => { b with refresh := none } else s

/-- A write of the rotation limit lowers a count above it (spec/05 R99). -/
def rotationLimitWritten (s : State) : State := s.modPneu fun p => { p with rotation := min p.rotation s.rotationLimit }

/-- A write of the parking parameter: LAST applies at once, NONE from the next release (spec/05 R110). -/
def parkingWritten (s : State) : State := if s.parksNowhere then s else s.modPneu fun p => { p with parkNone := false }

/-- What the owner of parameter `n` does at its write; `was` says what the two overrides were (spec/09 R181). -/
def parameterWritten (n : Nat) (was : Seat → Bool) (s : State) : State :=
  if n ≤ 12 then s
  else if n ≤ 22 then
    match zoneOfCode (n - 13) with
    | some z => limitWritten z s
    | none => s
  else if n ≤ 27 then s
  else if n ≤ 37 then runPass s
  else if n = 38 then stepDownTimeWritten s
  else if n ≤ 41 then runPass s
  else if n = 42 then refreshTimeWritten s
  else if n = 43 then s
  else if n = 44 then runPass (recomputeCeiling s)
  else if n ≤ 46 then runPass s
  else if n = 52 then rotationLimitWritten s
  else if n = 53 then parkingWritten s
  else if n = 56 then overrideWritten .left (was .left) s
  else if n = 57 then overrideWritten .right (was .right) s
  else s

/-- The write itself (spec/09 R181). -/
def storeParameter (n v : Nat) (s : State) : State := parameterWritten n s.override (s.putParam n v)

def ownWriteParameter (m : Master) (number : Byte) (value : Half) (s : State) : State × ResultCode :=
  if s.mayWrite m .config then
    if 59 < number.toNat then refuse .badField s
    else
      let v := nearestAllowed (paramRange number.toNat) value.toNat
      (storeParameter number.toNat v s, clampResult value.toNat v)
  else refuse .denied s

def takeWriteParameter (m : Master) (number : Byte) (value : Half) (s : State) : State :=
  recordResult m 0x40 none (ownWriteParameter m number value s)

def execWriteParameter (m : Master) (number : Byte) (value : Half) (s : State) : Host.Outcome State Fault Refusal :=
  taken (writeRow (takeWriteParameter m number value)) s

def answerReadParameter (m : Master) (number : Byte) (s : State) : State × List Byte :=
  if s.mayRead m .config then
    if 59 < number.toNat then refusal .badField s
    else answer (twoBytes (s.param number.toNat) ++ twoBytes (paramDefault number.toNat)) s
  else refusal .denied s

def execReadParameter (m : Master) (number : Byte) (s : State) : Host.Outcome State Fault Refusal :=
  taken (readRow m (answerReadParameter m number)) s

end Sys2Proof.Machine
end

