-- ==== Sys2Proof/Machine/Programs.lean ====
section
/-! DEFINITION. The massage cursors' commands (spec/07): START PROGRAM, ADJUST PROGRAM, PAUSE, RESUME and STOP PROGRAM. -/
namespace Sys2Proof.Machine

/-- The origin of a cursor and CHANGED, as a program command that changes it writes them (spec/07 R135). -/
def markCursor (m : Master) (x : Seat) (s : State) : State :=
  raiseChanged m x .cursor (s.modCursor x fun c => { c with origin := m.origin })

/-- The checks that every program command makes first (spec/07 R135). -/
def atCursor (m : Master) (seat : Byte) (f : Seat → State → State × ResultCode) (s : State) : State × ResultCode :=
  match seatOfCode seat.toNat with
  | none => refuse .badField s
  | some x => if s.mayWrite m x.region then f x s else refuse .denied s

/-! ## START PROGRAM (spec/07 R136, R137) -/

/-- The minutes that a start takes, and its result (spec/07 R136). -/
def takenMinutes (carried dflt : Nat) : Nat × ResultCode :=
  if carried = 0 then (dflt, .ok) else if carried ≤ 60 then (carried, .ok) else (60, .clamped)

/-- The record set for the new program (spec/07 R137 step 2). -/
def Cursor.started (program minutes : Nat) (c : Cursor) : Cursor :=
  { c with
    state := .running, phase := .none, program := some program, seconds := 60 * minutes, secondMs := 0, phaseMs := 0
    fault := .none, cause := .none, counter := none, hops := 0 }

/-- An accepted start (spec/07 R137). -/
def beginProgram (m : Master) (x : Seat) (program minutes : Nat) (first : StepIndex) (s : State) : State :=
  let freed := cancelVent (.massage x) (withdrawCursor x s)
  enterStep entryBound x first (markCursor m x (freed.modCursor x (Cursor.started program minutes)))

/-- The conditions 3 to 6 of R136, and the start. -/
def startAt (m : Master) (program minutes : Byte) (x : Seat) (s : State) : State × ResultCode :=
  if 15 < program.toNat then refuse .badField s
  else
    let e := s.dirEntry program.toNat
    if e.valid = false then refuse .badField s
    else if s.active x = false then refuse .vacant s
    else if (s.cursor x).state = .ending then refuse .busy s
    else
      let d := takenMinutes minutes.toNat e.minutes
      (beginProgram m x program.toNat d.1 e.first s, d.2)

def takeStartProgram (m : Master) (seat program minutes : Byte) (s : State) : State :=
  recordResult m 0x13 (seatOfCode seat.toNat) (atCursor m seat (startAt m program minutes) s)

def execStartProgram (m : Master) (seat program minutes : Byte) (s : State) : Host.Outcome State Fault Refusal :=
  taken (writeRow (takeStartProgram m seat program minutes)) s

/-! ## ADJUST PROGRAM (spec/07 R153) -/

def adjustAt (m : Master) (intensity speed : Byte) (x : Seat) (s : State) : State × ResultCode :=
  let i := clampNat 1 5 intensity.toNat
  let v := clampNat 1 3 speed.toNat
  let result : ResultCode := if i = intensity.toNat ∧ v = speed.toNat then .ok else .clamped
  let c := s.cursor x
  if result = .ok ∧ c.intensity = i ∧ c.speed = v then (s, result)
  else (markCursor m x (s.modCursor x fun c => { c with intensity := i, speed := v }), result)

def takeAdjustProgram (m : Master) (seat intensity speed : Byte) (s : State) : State :=
  recordResult m 0x14 (seatOfCode seat.toNat) (atCursor m seat (adjustAt m intensity speed) s)

def execAdjustProgram (m : Master) (seat intensity speed : Byte) (s : State) : Host.Outcome State Fault Refusal :=
  taken (writeRow (takeAdjustProgram m seat intensity speed)) s

/-! ## PAUSE (spec/07 R154) -/

/-- The vent cancel of a cursor in VENT. -/
def cancelPhaseVent (x : Seat) (s : State) : State :=
  if (s.cursor x).phase = .vent then cancelVent (.massage x) s else s

def pauseAt (m : Master) (x : Seat) (s : State) : State × ResultCode :=
  if (s.cursor x).state = .running then
    (markCursor m x ((cancelPhaseVent x (withdrawCursor x s)).modCursor x fun c => { c with state := .paused }), .ok)
  else (s, .ok)

def takePause (m : Master) (seat : Byte) (s : State) : State :=
  recordResult m 0x15 (seatOfCode seat.toNat) (atCursor m seat (pauseAt m) s)

def execPause (m : Master) (seat : Byte) (s : State) : Host.Outcome State Fault Refusal :=
  taken (writeRow (takePause m seat)) s

/-! ## RESUME (spec/07 R155) -/

/-- The remembered phase resumed (spec/07 R155). -/
def resumePhase (x : Seat) (s : State) : State :=
  match (s.cursor x).copy with
  | none => s
  | some f =>
    match (s.cursor x).phase with
    | .vent => beginVent x f.vent s
    | .fillWait | .filling => beginFillWait x f.fill s
    | .dwell | .none => s

def resumeAt (m : Master) (x : Seat) (s : State) : State × ResultCode :=
  if (s.cursor x).state = .paused then
    (resumePhase x (markCursor m x (s.modCursor x fun c => { c with state := .running })), .ok)
  else (s, .ok)

def takeResume (m : Master) (seat : Byte) (s : State) : State :=
  recordResult m 0x16 (seatOfCode seat.toNat) (atCursor m seat (resumeAt m) s)

def execResume (m : Master) (seat : Byte) (s : State) : Host.Outcome State Fault Refusal :=
  taken (writeRow (takeResume m seat)) s

/-! ## STOP PROGRAM (spec/07 R156) -/

def stopAt (m : Master) (x : Seat) (s : State) : State × ResultCode :=
  match (s.cursor x).state with
  | .running | .paused => (enterEnding x .stopped (markCursor m x s), .ok)
  | .fault => (markCursor m x (s.modCursor x Cursor.idled), .ok)
  | .idle | .ending => (s, .ok)

def takeStopProgram (m : Master) (seat : Byte) (s : State) : State :=
  recordResult m 0x17 (seatOfCode seat.toNat) (atCursor m seat (stopAt m) s)

def execStopProgram (m : Master) (seat : Byte) (s : State) : Host.Outcome State Fault Refusal :=
  taken (writeRow (takeStopProgram m seat)) s

end Sys2Proof.Machine
end

