-- ==== Sys2Proof/Machine/Settings.lean ====
section
/-! DEFINITION. The seat record store's commands (spec/01): SET ZONE, SET FAN, SET SUPPORT, RESET SEATS and READ SEAT. -/
namespace Sys2Proof.Machine

/-! ## SET ZONE (spec/01 R4) -/

/-- An accepted SET ZONE: level, origin, step-down count, re-arm (spec/02 R34), CHANGED and a pass. -/
def storeZone (m : Master) (z : ZoneId) (level : Nat) (s : State) : State :=
  let stored := s.setLevel z { value := level, origin := m.origin }
  let armed := stored.setZone z { restartStepDown (stored.zone z) with latch := false }
  runPass (raiseChanged m z.seat (.zone z) (evaluateZone z armed))

def ownSetZone (m : Master) (zone level : Byte) (s : State) : State × ResultCode :=
  match zoneOfCode zone.toNat with
  | none => refuse .badField s
  | some z =>
    if s.mayWrite m z.seat.region then
      (storeZone m z (min 5 level.toNat) s, clampResult level.toNat (min 5 level.toNat))
    else refuse .denied s

def takeSetZone (m : Master) (zone level : Byte) (s : State) : State :=
  recordResult m 0x10 ((zoneOfCode zone.toNat).map (·.seat)) (ownSetZone m zone level s)

def execSetZone (m : Master) (zone level : Byte) (s : State) : Host.Outcome State Fault Refusal :=
  taken (writeRow (takeSetZone m zone level)) s

/-! ## SET FAN (spec/01 R5) -/

/-- An accepted SET FAN: level, origin, re-arm (spec/03 R52), CHANGED and a pass. -/
def storeFan (m : Master) (f : FanId) (level : Nat) (s : State) : State :=
  let stored := s.setFanLevel f { value := level, origin := m.origin }
  runPass (raiseChanged m f.seat (.fan f) (handFan true f stored))

def ownSetFan (m : Master) (fan level : Byte) (s : State) : State × ResultCode :=
  match fanOfCode fan.toNat with
  | none => refuse .badField s
  | some f =>
    if s.mayWrite m f.seat.region then
      (storeFan m f (min 3 level.toNat) s, clampResult level.toNat (min 3 level.toNat))
    else refuse .denied s

def takeSetFan (m : Master) (fan level : Byte) (s : State) : State :=
  recordResult m 0x11 ((fanOfCode fan.toNat).map (·.seat)) (ownSetFan m fan level s)

def execSetFan (m : Master) (fan level : Byte) (s : State) : Host.Outcome State Fault Refusal :=
  taken (writeRow (takeSetFan m fan level)) s

/-! ## SET SUPPORT (spec/01 R6) -/

/-- An accepted SET SUPPORT: setpoint, origin, CHANGED and the hand-off to the regulator. -/
def storeSupport (m : Master) (x : Seat) (c : HoldCell) (v : Nat) (s : State) : State :=
  let stored := s.setSetpoint x c { value := v, origin := m.origin }
  handSetpoint x c (s.setpoint x c).value v (raiseChanged m x (.cell c) stored)

def ownSetSupport (m : Master) (seat cell : Byte) (setpoint : Half) (s : State) : State × ResultCode :=
  match seatOfCode seat.toNat, cellOfCode cell.toNat with
  | some x, some c =>
    if s.mayWrite m x.region then
      if s.faultMark x c && decide (0 < setpoint.toNat) then refuse .badField s
      else (storeSupport m x c (min 350 setpoint.toNat) s, clampResult setpoint.toNat (min 350 setpoint.toNat))
    else refuse .denied s
  | _, _ => refuse .badField s

/-- The seat that a SET SUPPORT names. DEDUCED (notes/assumptions/48.md): a cell number that names no holding cell names no seat
either (spec/01 section 1.2), which the list of R175 leaves out. -/
def supportSeat (seat cell : Byte) : Option Seat :=
  if (cellOfCode cell.toNat).isSome then seatOfCode seat.toNat else none

def takeSetSupport (m : Master) (seat cell : Byte) (setpoint : Half) (s : State) : State :=
  recordResult m 0x12 (supportSeat seat cell) (ownSetSupport m seat cell setpoint s)

def execSetSupport (m : Master) (seat cell : Byte) (setpoint : Half) (s : State) : Host.Outcome State Fault Refusal :=
  taken (writeRow (takeSetSupport m seat cell setpoint)) s

/-! ## RESET SEATS (spec/01 R18, R19) -/

/-- Every setting of a seat 0 with origin DEVICE, its underfill count 0. -/
def SeatRecord.cleared (r : SeatRecord) : SeatRecord :=
  { r with levels := Five.all .zero, fanLevels := ⟨.zero, .zero⟩, setpoints := Four.all .zero, underfill := 0 }

/-- A zone channel at RESET SEATS (spec/02 R44). -/
def ZoneChannel.cleared (active : Bool) (c : ZoneChannel) : ZoneChannel :=
  shutZone (if active then .off else .standby) { restartStepDown c with latch := false }

/-- A cursor at RESET SEATS (spec/07 R158). -/
def Cursor.cleared (_ : Cursor) : Cursor := Cursor.powerOn

/-- The two seats' blocks at RESET SEATS, less the pneumatic controller and the notices. -/
def clearSeats (s : State) : State :=
  { s with
    seats := ⟨s.seats.left.cleared, s.seats.right.cleared⟩
    zones := ⟨s.zones.left.map (ZoneChannel.cleared (s.active .left)), s.zones.right.map (ZoneChannel.cleared (s.active .right))⟩
    fans := ⟨s.fans.left.map resetFan, s.fans.right.map resetFan⟩
    cursors := ⟨s.cursors.left.cleared, s.cursors.right.cleared⟩
    regulators := ⟨s.regulators.left.cleared, s.regulators.right.cleared⟩ }

/-- The pending sets at RESET SEATS (spec/10 R190). -/
def dropSeatNotices (s : State) : State :=
  { s with notices := ⟨s.notices.gateway.dropSeatKinds, s.notices.leftPanel.dropSeatKinds, s.notices.rightPanel.dropSeatKinds⟩ }

/-- An accepted RESET SEATS; one pass serves R111 step 6 and R18 (notes/assumptions/25.md). -/
def clearCabin (m : Master) (s : State) : State :=
  let reset := dropSeatNotices (resetPneumatic (clearSeats s))
  runPass (raiseChanged m .right .wholeSeat (raiseChanged m .left .wholeSeat reset))

def ownResetSeats (m : Master) (s : State) : State × ResultCode :=
  if s.mayWrite m .leftSeat && s.mayWrite m .rightSeat then (clearCabin m s, .ok) else refuse .denied s

def takeResetSeats (m : Master) (s : State) : State := recordResult m 0x18 none (ownResetSeats m s)

def execResetSeats (m : Master) (s : State) : Host.Outcome State Fault Refusal := taken (writeRow (takeResetSeats m)) s

/-! ## READ SEAT (spec/01 R17) -/

def answerReadSeat (m : Master) (seat part : Byte) (s : State) : State × List Byte :=
  match seatOfCode seat.toNat with
  | none => refusal .badField s
  | some x =>
    if s.mayRead m x.region then
      if 3 < part.toNat then refusal .badField s else answer (seatPart s x part.toNat) s
    else refusal .denied s

def execReadSeat (m : Master) (seat part : Byte) (s : State) : Host.Outcome State Fault Refusal :=
  taken (readRow m (answerReadSeat m seat part)) s

end Sys2Proof.Machine
end

