-- ==== Sys2Proof/Machine/StoreCommands.lean ====
section
/-! DEFINITION. The pattern store's commands (spec/06): WRITE STEP, READ STEP, WRITE PROGRAM ENTRY, READ PROGRAM ENTRY,
READ DIAGNOSTICS and CLEAR DIAGNOSTICS. -/
namespace Sys2Proof.Machine

/-! ## WRITE STEP (spec/06 R116, R117, spec/09 section 9.7.2) -/

/-- The record that the data carry, its target brought into range (spec/06 R117). -/
def carriedRecord (d : StepData) : StepFields :=
  { vent := d.vent, fill := d.fill, target := min 400 d.target.toNat, dwell := d.dwell.toNat
    next := if d.nextMode = 0 then none else some d.nextIndex
    again := if d.repeatMarker = 0 then none else some { target := d.repeatTarget, count := d.repeatCount.toNat } }

/-- A cell outside M0 to M11 in a set. -/
def namesHoldCell (c : CellSet) : Bool := c &&& 0xF000 != 0

/-- Orders 4 to 6 of R116. -/
def badRecord (d : StepData) : Bool :=
  namesHoldCell d.vent || namesHoldCell d.fill || decide (1 < d.nextMode.toNat) ||
  (d.repeatMarker != 0 && (d.repeatCount == 0 || decide (15 < d.repeatCount.toNat)))

def ownWriteStep (m : Master) (d : StepData) (s : State) : State × ResultCode :=
  if s.mayWrite m .store then
    if inRom d.index then refuse .readOnly s
    else if d.kind = 2 then (s.putRam d.index { content := none, weight := 0 }, .ok)
    else if d.kind = 1 then
      if badRecord d then refuse .badField s
      else (s.putRam d.index { content := some (carriedRecord d), weight := 0 }, clampResult d.target.toNat (min 400 d.target.toNat))
    else refuse .badField s
  else refuse .denied s

def takeWriteStep (m : Master) (d : StepData) (s : State) : State := recordResult m 0x30 none (ownWriteStep m d s)

def execWriteStep (m : Master) (d : StepData) (s : State) : Host.Outcome State Fault Refusal :=
  taken (writeRow (takeWriteStep m d)) s

/-! ## READ STEP (spec/06 R119) -/

def answerReadStep (m : Master) (index : Byte) (s : State) : State × List Byte :=
  if s.mayRead m .store then (readRecord index s, stepAnswer (s.storeAnswer index)) else refusal .denied s

def execReadStep (m : Master) (index : Byte) (s : State) : Host.Outcome State Fault Refusal :=
  taken (readRow m (answerReadStep m index)) s

/-! ## The directory (spec/06 R126, R127) -/

def ownWriteEntry (m : Master) (program validity firstStep minutes : Byte) (s : State) : State × ResultCode :=
  if s.mayWrite m .store then
    if 15 < program.toNat then refuse .badField s
    else if program.toNat < 4 then refuse .readOnly s
    else if 1 < validity.toNat then refuse .badField s
    else
      (s.putEntry program.toNat { valid := validity == 0, first := firstStep, minutes := clampNat 1 60 minutes.toNat },
        clampResult minutes.toNat (clampNat 1 60 minutes.toNat))
  else refuse .denied s

def takeWriteEntry (m : Master) (program validity firstStep minutes : Byte) (s : State) : State :=
  recordResult m 0x31 none (ownWriteEntry m program validity firstStep minutes s)

def execWriteProgramEntry (m : Master) (program validity firstStep minutes : Byte) (s : State) :
    Host.Outcome State Fault Refusal :=
  taken (writeRow (takeWriteEntry m program validity firstStep minutes)) s

def answerReadEntry (m : Master) (program : Byte) (s : State) : State × List Byte :=
  if s.mayRead m .store then
    if 15 < program.toNat then refusal .badField s else (s, entryAnswer program.toNat (s.dirEntry program.toNat))
  else refusal .denied s

def execReadProgramEntry (m : Master) (program : Byte) (s : State) : Host.Outcome State Fault Refusal :=
  taken (readRow m (answerReadEntry m program)) s

/-! ## Diagnostics (spec/06 R130, R131, spec/05 R112, spec/04 R67) -/

def diagnosticsPart (s : State) : Nat → List Byte
  | 0 => storePart s.log
  | _ => pneumaticPart s.pneu

def answerReadDiagnostics (m : Master) (part : Byte) (s : State) : State × List Byte :=
  if s.mayRead m .config then
    if 1 < part.toNat then refusal .badField s else answer (diagnosticsPart s part.toNat) s
  else refusal .denied s

def execReadDiagnostics (m : Master) (part : Byte) (s : State) : Host.Outcome State Fault Refusal :=
  taken (readRow m (answerReadDiagnostics m part)) s

/-- The derate steps and the overdraw run cleared (spec/04 R67). DESIGN CHOICE (notes/assumptions/51.md): the pass of R67 raises what
any pass raises, so BUDGET LIMITED where it is LIMITED or STARVED after FULL (R80), although the command itself raises no notice and
leaves the pending sets as they are (spec/06 R131, spec/10 R190). -/
def clearSteps (s : State) : State :=
  let cleared := s.modBudget fun b => { b with derate := 0, overdrawRun := 0 }
  if s.budget.derate = 0 then cleared else runPass (recomputeCeiling cleared)

/-- What a scan of this moment takes its derate step by, where the overdraw run has reached the scan that takes one. -/
def Budget.stepDue (b : Budget) : Option Nat := if 2 ≤ b.overdrawRun then some b.peak else b.stepPeak

/-- CLEAR DIAGNOSTICS at the allocator (spec/04 R67). DEDUCED (notes/assumptions/47.md): R67 has the clear return the overdraw run to 0,
and yet has a derate step of the same moment, taken second, take d to 1; the step is kept for that moment. -/
def clearDerate (s : State) : State := (clearSteps s).modBudget fun b => { b with stepPeak := s.budget.stepDue }

def ownClearDiagnostics (m : Master) (s : State) : State × ResultCode :=
  if s.mayWrite m .config then (clearDerate { s with log := .clear }, .ok) else refuse .denied s

def takeClearDiagnostics (m : Master) (s : State) : State := recordResult m 0x43 none (ownClearDiagnostics m s)

def execClearDiagnostics (m : Master) (s : State) : Host.Outcome State Fault Refusal :=
  taken (writeRow (takeClearDiagnostics m)) s

end Sys2Proof.Machine
end

