-- ==== Sys2Proof/Machine/Bus.lean ====
section
/-! DEFINITION. The bus interface on the wire (spec/09 sections 9.1 to 9.3): the conditions and bytes of a transaction, the
judgement of a frame, and the taking of the command that it carries: TRANSACTION_START, FRAME_BYTE, BUS_STOP, REPEATED_START,
RESPONSE_BYTE, TRANSACTION_TIMEOUT and BUS_LOW_TIMEOUT. -/
namespace Sys2Proof.Machine

/-! ## Commands on the wire (spec/09 section 9.5) -/

/-- The commands that a frame may carry. -/
inductive Command where
  | setZone | setFan | setSupport | startProgram | adjustProgram | pause | resume | stopProgram | resetSeats | readSeat
  | setCeiling | readBudget | writeStep | writeProgramEntry | readStep | readProgramEntry | writeParameter | readParameter
  | readDiagnostics | clearDiagnostics | writeAccess | readAccess | setNoticeMask | takeNotice | readNotices | readResult
  deriving DecidableEq, Repr

def commandOfCode : Nat → Option Command
  | 0x10 => some .setZone
  | 0x11 => some .setFan
  | 0x12 => some .setSupport
  | 0x13 => some .startProgram
  | 0x14 => some .adjustProgram
  | 0x15 => some .pause
  | 0x16 => some .resume
  | 0x17 => some .stopProgram
  | 0x18 => some .resetSeats
  | 0x19 => some .readSeat
  | 0x20 => some .setCeiling
  | 0x21 => some .readBudget
  | 0x30 => some .writeStep
  | 0x31 => some .writeProgramEntry
  | 0x32 => some .readStep
  | 0x33 => some .readProgramEntry
  | 0x40 => some .writeParameter
  | 0x41 => some .readParameter
  | 0x42 => some .readDiagnostics
  | 0x43 => some .clearDiagnostics
  | 0x50 => some .writeAccess
  | 0x51 => some .readAccess
  | 0x60 => some .setNoticeMask
  | 0x61 => some .takeNotice
  | 0x62 => some .readNotices
  | 0x70 => some .readResult
  | _ => none

/-- Whether the command is sent in a read transaction. -/
def Command.isRead : Command → Bool
  | .readSeat | .readBudget | .readStep | .readProgramEntry | .readParameter | .readDiagnostics | .readAccess | .takeNotice
  | .readNotices | .readResult => true
  | .setZone | .setFan | .setSupport | .startProgram | .adjustProgram | .pause | .resume | .stopProgram | .resetSeats
  | .setCeiling | .writeStep | .writeProgramEntry | .writeParameter | .clearDiagnostics | .writeAccess | .setNoticeMask => false

/-- The data length n that the frame must carry. -/
def Command.dataLength : Command → Nat
  | .resetSeats | .clearDiagnostics | .readAccess | .takeNotice | .readNotices | .readResult => 0
  | .pause | .resume | .stopProgram | .readBudget | .readStep | .readProgramEntry | .readParameter | .readDiagnostics => 1
  | .setZone | .setFan | .readSeat | .setCeiling | .setNoticeMask => 2
  | .startProgram | .adjustProgram | .writeParameter | .writeAccess => 3
  | .setSupport | .writeProgramEntry => 4
  | .writeStep => 14

/-- WRITE STEP's data (spec/09 section 9.7.2). -/
def stepDataOf : List Byte → Option StepData
  | [i, k, v1, v0, f1, f0, t1, t0, d, nm, ni, rm, rt, rc] =>
    some { index := i, kind := k, vent := halfOf v1 v0, fill := halfOf f1 f0, target := halfOf t1 t0, dwell := d
           nextMode := nm, nextIndex := ni, repeatMarker := rm, repeatTarget := rt, repeatCount := rc }
  | _ => none

/-- A write command that passed the bus interface, handed to its owner (spec/09 R171). -/
def takeWrite (m : Master) : Command → List Byte → State → State
  | .setZone, [z, l], s => takeSetZone m z l s
  | .setFan, [f, l], s => takeSetFan m f l s
  | .setSupport, [x, c, v1, v0], s => takeSetSupport m x c (halfOf v1 v0) s
  | .startProgram, [x, p, d], s => takeStartProgram m x p d s
  | .adjustProgram, [x, i, v], s => takeAdjustProgram m x i v s
  | .pause, [x], s => takePause m x s
  | .resume, [x], s => takeResume m x s
  | .stopProgram, [x], s => takeStopProgram m x s
  | .resetSeats, [], s => takeResetSeats m s
  | .setCeiling, [c1, c0], s => takeSetCeiling m (halfOf c1 c0) s
  | .writeStep, data, s =>
    match stepDataOf data with
    | some d => takeWriteStep m d s
    | none => s
  | .writeProgramEntry, [p, v, f, d], s => takeWriteEntry m p v f d s
  | .writeParameter, [n, v1, v0], s => takeWriteParameter m n (halfOf v1 v0) s
  | .clearDiagnostics, [], s => takeClearDiagnostics m s
  | .writeAccess, [k, r, v], s => takeWriteAccess m k r v s
  | .setNoticeMask, [k1, k0], s => takeSetMask m (halfOf k1 k0) s
  | _, _, s => s

/-- A read command that passed the bus interface, handed to its owner (spec/09 R172). -/
def takeRead (m : Master) : Command → List Byte → State → State × List Byte
  | .readSeat, [x, p], s => answerReadSeat m x p s
  | .readBudget, [p], s => answerReadBudget m p s
  | .readStep, [i], s => answerReadStep m i s
  | .readProgramEntry, [p], s => answerReadEntry m p s
  | .readParameter, [n], s => answerReadParameter m n s
  | .readDiagnostics, [p], s => answerReadDiagnostics m p s
  | .readAccess, [], s => answerReadAccess m s
  | .takeNotice, [], s => answerTakeNotice m s
  | .readNotices, [], s => answerReadNotices m s
  | .readResult, [], s => answerReadResult m s
  | _, _, s => refusal .unknown s

/-! ## The judgement of a frame (spec/09 R171) -/

/-- A frame that passed orders 1 to 3: its command and data. -/
structure Passed where
  command : Command
  code : Byte
  length : Byte
  data : List Byte
  deriving DecidableEq, Repr

/-- Orders 1 to 3 of R171. -/
def judgeFrame (ads : BitVec 2) (m : Master) (bytes : List Byte) (overflow : Bool) : Except ResultCode Passed :=
  match bytes with
  | code :: len :: rest =>
    if rest = [] ∨ overflow = true ∨ bytes.length ≠ len.toNat + 3 then .error .length
    else if checkByte (addressByte ads m false :: bytes.dropLast) ≠ bytes.getLastD 0 then .error .check
    else
      match commandOfCode code.toNat with
      | none => .error .unknown
      | some c => .ok { command := c, code := code, length := len, data := rest.dropLast }
  | _ => .error .length

/-- Order 4 of R171 for a write frame. -/
def judgeWrite (p : Passed) : Except ResultCode Passed :=
  if p.command.isRead then .error .unknown
  else if p.length.toNat ≠ p.command.dataLength then .error .length
  else .ok p

/-- Order 4 of R171 for a request frame that carries a read command. -/
def judgeRead (p : Passed) : Except ResultCode Passed :=
  if p.length.toNat ≠ p.command.dataLength then .error .length else .ok p

/-- A refusal by the bus interface of a frame ended by STOP (spec/09 R175). -/
def recordRefusal (m : Master) (r : ResultCode) (bytes : List Byte) (s : State) : State :=
  { s with results := s.results.set m { result := r, command := bytes.head?, seat := none } }

/-- A write frame ended by STOP, with at least one byte (spec/09 R171). -/
def takeFrame (m : Master) (bytes : List Byte) (overflow : Bool) (s : State) : State :=
  match (judgeFrame s.ads m bytes overflow).bind judgeWrite with
  | .error r => recordRefusal m r bytes s
  | .ok p => takeWrite m p.command p.data s

/-- The request frame of a read transaction, answered (spec/09 R172). -/
def answerRequest (m : Master) (bytes : List Byte) (overflow : Bool) (s : State) : State × List Byte :=
  match judgeFrame s.ads m bytes overflow with
  | .error r => refusal r s
  | .ok p =>
    if p.command.isRead then
      match judgeRead p with
      | .error r => refusal r s
      | .ok q => takeRead m q.command q.data s
    else answerReadResult m s

/-! ## Conditions and bytes -/

/-- A frame begins after an acknowledged write address (spec/09 R170). -/
def beginFrame (m : Master) (time : Nat) (s : State) : State :=
  { s with bus := { BusRecord.idle with phase := .receiving, master := some m, ack := true, time := time, low := s.freshLow } }

/-- A START and its address byte (spec/09 R168, R169, R172). -/
def startTransaction (addr : Byte) (s : State) : State :=
  let fresh := s.passedOver
  if s.scanned then
    match addressed s.ads addr with
    | some (m, false) => beginFrame m 0 fresh
    | some (m, true) => respond m (answerReadResult m fresh)
    | none => fresh
  else fresh

def execTransactionStart (addr : Byte) (s : State) : Host.Outcome State Fault Refusal := taken (startTransaction addr) s

/-- A byte at the frame in progress (spec/09 R170). -/
def BusRecord.keepByte (b : Byte) (r : BusRecord) : BusRecord :=
  if r.received.length < 35 then { r with received := r.received ++ [b], ack := true } else { r with overflow := true, ack := false }

/-- A byte of a frame (spec/09 R170); outside RECEIVING the part takes nothing from it. -/
def receiveByte (b : Byte) (s : State) : State :=
  let r : BusRecord := { s.bus with low := s.freshLow }
  match s.bus.phase with
  | .receiving => { s with bus := r.keepByte b }
  | .idle | .sending => { s with bus := r }

def execFrameByte (b : Byte) (s : State) : Host.Outcome State Fault Refusal := taken (receiveByte b) s

/-- A STOP (spec/09 R170, R172, R176). -/
def stopTransaction (s : State) : State :=
  let ended := { s with bus := .idle }
  match s.bus.phase, s.bus.master with
  | .receiving, some m =>
    if s.bus.received.isEmpty && !s.bus.overflow then ended else takeFrame m s.bus.received s.bus.overflow ended
  | _, _ => ended

def execBusStop (s : State) : Host.Outcome State Fault Refusal := taken stopTransaction s

/-- A repeated START within a transaction (spec/09 R169, R170, R172). -/
def continueTransaction (addr : Byte) (s : State) : State :=
  match addressed s.ads addr with
  | none => s.passedOver
  | some (m, false) => beginFrame m s.bus.time s
  | some (m, true) =>
    if s.bus.master = some m then
      match s.bus.phase with
      | .receiving => respond m (answerRequest m s.bus.received s.bus.overflow s)
      | .sending | .idle => respond m (answerReadResult m s)
    else s.passedOver

/-- A repeated START; in IDLE it begins a transaction as a START does (spec/09 R169). -/
def repeatStart (addr : Byte) (s : State) : State :=
  match s.bus.phase with
  | .idle => startTransaction addr s
  | .receiving | .sending => continueTransaction addr s

def execRepeatedStart (addr : Byte) (s : State) : Host.Outcome State Fault Refusal := taken (repeatStart addr) s

/-- The next byte of the response goes out (spec/09 R172): 0xFF where SDA is released or the response is over. -/
def BusRecord.sendByte (acked : Bool) (r : BusRecord) : BusRecord :=
  { r with
    sda := if r.released then 0xFF else r.response.getD r.sent 0xFF
    sent := if r.released then r.sent else min r.response.length (r.sent + 1)
    released := r.released || !acked }

/-- A response byte is clocked out (spec/09 R172); outside SENDING the part puts nothing on the wire. -/
def clockByte (acked : Bool) (s : State) : State :=
  let r : BusRecord := { s.bus with low := s.freshLow }
  match s.bus.phase with
  | .sending => { s with bus := r.sendByte acked }
  | .idle | .receiving => { s with bus := r }

def execResponseByte (acked : Bool) (s : State) : Host.Outcome State Fault Refusal := taken (clockByte acked) s

/-- The interface reset of a timeout: the transaction record alone, in which the bus-low timer goes by the lines, not by the part
(spec/09 R176, R177). -/
def resetInterface (s : State) : State := { s with bus := { BusRecord.idle with low := s.bus.low } }

/-- TRANSACTION_TIMEOUT (spec/09 R176): 750 ms have passed since the START; a transaction begun since has its own. -/
def expireTransaction (s : State) : State := if 750 ≤ s.bus.time then resetInterface s else s

def execTransactionTimeout (s : State) : Host.Outcome State Fault Refusal := taken expireTransaction s

/-- A line may have been low for the limit that stood when it last went low (spec/09 R177; section 9.8 has a line that goes low at
10.0 ms time out at 40.0 ms with a limit of 30 ms). -/
def BusRecord.lowOver (b : BusRecord) : Bool :=
  match b.low with
  | some l => decide (l.limit ≤ l.time)
  | none => false

/-- BUS_LOW_TIMEOUT (spec/09 R177): the limit has passed since a line was last released; in IDLE the expiry changes nothing. -/
def expireBusLow (s : State) : State := if s.bus.lowOver && s.bus.phase != .idle then resetInterface s else s

def execBusLowTimeout (s : State) : Host.Outcome State Fault Refusal := taken expireBusLow s

end Sys2Proof.Machine
end

