-- ==== Sys2Proof/Machine/FanEvents.lean ====
section
/-! DEFINITION. The events of the fan controller (spec/03): TACH_PULSE, FAN_STALL, RETRY_TIMER_EXPIRY, CLEAN_RUN_COMPLETE. -/
namespace Sys2Proof.Machine

/-- TACH_PULSE (spec/03 R49): ignored while the output is off. -/
def pulseFan (f : FanId) (s : State) : State :=
  if (s.fan f).driven then s.setFan f { s.fan f with tachWatch := some 2000 } else s

def execTachPulse (f : FanId) (s : State) : Host.Outcome State Fault Refusal := taken (pulseFan f) s

/-- FAN_STALL (spec/03 R50, R52): the tach watch has run out, which a pulse taken first prevents (R49). -/
def stallFan (f : FanId) (s : State) : State :=
  let c := s.fan f
  if c.state = .run ∧ c.driven = true ∧ c.tachWatch = some 0 then
    let stalled := s.setFan f (stallChannel c)
    if c.retries < 3 then runPass stalled
    else runPass (raiseSeat .fanFault f.seat (.fanFault f) none stalled)
  else s

def execFanStall (f : FanId) (s : State) : Host.Outcome State Fault Refusal := taken (stallFan f) s

/-- RETRY_TIMER_EXPIRY (spec/03 R51): the timer has run out, and a pass follows where the demand level changes. -/
def expireRetry (f : FanId) (s : State) : State :=
  let c := s.fan f
  if c.state = .retryWait ∧ c.retryTimer = some 0 then
    let t := rederiveFan f (s.setFan f (restartChannel c))
    if (t.fan f).demand = c.demand then t else runPass t
  else s

def execRetryTimerExpiry (f : FanId) (s : State) : Host.Outcome State Fault Refusal := taken (expireRetry f) s

/-- CLEAN_RUN_COMPLETE (spec/03 R53): the clean-run time has reached 60 s. DESIGN CHOICE (notes/assumptions/46.md): taken after an
event of the same moment that turned the output off, a pass that grants 0 or the entry into STANDBY, it has no effect, and the time
stays at 60 s with the retries uncleared; R53 settles only the tie with a stall. -/
def completeCleanRun (f : FanId) (s : State) : State :=
  let c := s.fan f
  if c.state = .run ∧ c.driven = true ∧ 60000 ≤ c.cleanRun then s.setFan f { c with retries := 0, cleanRun := 60000 } else s

def execCleanRunComplete (f : FanId) (s : State) : Host.Outcome State Fault Refusal := taken (completeCleanRun f) s

end Sys2Proof.Machine
end

