-- ==== Sys2Proof/Machine/SupplyEvents.lean ====
section
/-! DEFINITION. The supply and its monitor (spec/04): POWER_ON, LOSS_OF_SUPPLY, SUPPLY_SAMPLE and CEILING_REFRESH_EXPIRY. -/
namespace Sys2Proof.Machine

/-- The supply reading of a sample, saturating (spec/04 R57). -/
def storedReading (v : Nat) : Nat := min 255 v

/-- LOSS_OF_SUPPLY (spec/04 R62): the part loses function and all of its state; only the commands that wait stay. -/
def loseSupply (s : State) : State := { State.reset with powered := false, pending := s.pending }

def execLossOfSupply (s : State) : Host.Outcome State Fault Refusal := .next (loseSupply s)

/-- The power-on values with the pins' levels, before the first pass (spec/01 R2, spec/04 R58, spec/09 R168). -/
def poweredUp (ads : BitVec 2) (occL occR : Bool) (vsns : Nat) (s : State) : State :=
  recomputeCeiling
    { State.reset with
      ads := ads
      seats := ⟨.powerOn occL, .powerOn occR⟩
      supply := { State.reset.supply with band := classifyFirst vsns, reading := storedReading vsns }
      pending := s.pending }

/-- The power-on pass (spec/04 R58): it raises nothing, and the peak takes its total. -/
def powerOnPass (s : State) : State :=
  let a := allocate s.passInput
  handOff a (s.modBudget fun b => { b with result := a, peak := a.total })

/-- POWER_ON (spec/01 R2, spec/04 R58, R62): a supply below 6.0 V brings none. -/
def powerUp (ads : BitVec 2) (occL occR : Bool) (vsns : Nat) (s : State) : State :=
  if vsns < 60 then s else powerOnPass (poweredUp ads occL occR vsns s)

def execPowerOn (ads : BitVec 2) (occL occR : Bool) (vsns : Nat) (s : State) : Host.Outcome State Fault Refusal :=
  .next (powerUp ads occL occR vsns s)

/-- A band change (spec/04 R63). -/
def changeBand (b : Band) (s : State) : State :=
  let t := recomputeCeiling { s with supply := { s.supply with band := b } }
  runPass (raiseDevice .supply (.supply b s.supply.band) t)

/-- SUPPLY_SAMPLE (spec/04 R62). -/
def sampleSupply (v : Nat) (s : State) : State :=
  if v < 60 then loseSupply s
  else
    let stored := { s with supply := { s.supply with reading := storedReading v }, supplyTimer := 10 }
    if classify s.supply.band v = s.supply.band then stored else changeBand (classify s.supply.band v) stored

def execSupplySample (v : Nat) (s : State) : Host.Outcome State Fault Refusal := taken (sampleSupply v) s

/-- CEILING_REFRESH_EXPIRY (spec/04 R60): the timer has run out, which a SET CEILING taken first prevents. -/
def expireRefresh (s : State) : State :=
  match s.budget.refresh with
  | none | some (_ + 1) => s
  | some 0 =>
    let fallen := s.modBudget fun b => { b with ceiling := s.defaultCeiling, refresh := none }
    runPass (recomputeCeiling (raiseDevice .lease (.lease s.defaultCeiling) fallen))

def execCeilingRefreshExpiry (s : State) : Host.Outcome State Fault Refusal := taken expireRefresh s

end Sys2Proof.Machine
end

