-- ==== Sys2Proof/Machine/Dispatch.lean ====
section
/-! DEFINITION. The meaning of every command: one arm per constructor, one direct call each. -/
namespace Sys2Proof.Machine

def exec (i : Instr) (s : State) : Host.Outcome State Fault Refusal :=
  match i with
  | .powerOn ads occL occR vsns => Sys2Proof.Machine.execPowerOn ads occL occR vsns s
  | .transactionStart addr => Sys2Proof.Machine.execTransactionStart addr s
  | .frameByte b => Sys2Proof.Machine.execFrameByte b s
  | .busStop => Sys2Proof.Machine.execBusStop s
  | .repeatedStart addr => Sys2Proof.Machine.execRepeatedStart addr s
  | .responseByte acked => Sys2Proof.Machine.execResponseByte acked s
  | .transactionTimeout => Sys2Proof.Machine.execTransactionTimeout s
  | .busLowTimeout => Sys2Proof.Machine.execBusLowTimeout s
  | .setZone m zone level => Sys2Proof.Machine.execSetZone m zone level s
  | .setFan m fan level => Sys2Proof.Machine.execSetFan m fan level s
  | .setSupport m seat cell setpoint => Sys2Proof.Machine.execSetSupport m seat cell setpoint s
  | .startProgram m seat program minutes => Sys2Proof.Machine.execStartProgram m seat program minutes s
  | .adjustProgram m seat intensity speed => Sys2Proof.Machine.execAdjustProgram m seat intensity speed s
  | .pause m seat => Sys2Proof.Machine.execPause m seat s
  | .resume m seat => Sys2Proof.Machine.execResume m seat s
  | .stopProgram m seat => Sys2Proof.Machine.execStopProgram m seat s
  | .resetSeats m => Sys2Proof.Machine.execResetSeats m s
  | .readSeat m seat part => Sys2Proof.Machine.execReadSeat m seat part s
  | .setCeiling m ceiling => Sys2Proof.Machine.execSetCeiling m ceiling s
  | .readBudget m part => Sys2Proof.Machine.execReadBudget m part s
  | .writeStep m data => Sys2Proof.Machine.execWriteStep m data s
  | .readStep m index => Sys2Proof.Machine.execReadStep m index s
  | .writeProgramEntry m program validity firstStep minutes => Sys2Proof.Machine.execWriteProgramEntry m program validity firstStep minutes s
  | .readProgramEntry m program => Sys2Proof.Machine.execReadProgramEntry m program s
  | .writeParameter m number value => Sys2Proof.Machine.execWriteParameter m number value s
  | .readParameter m number => Sys2Proof.Machine.execReadParameter m number s
  | .readDiagnostics m part => Sys2Proof.Machine.execReadDiagnostics m part s
  | .clearDiagnostics m => Sys2Proof.Machine.execClearDiagnostics m s
  | .writeAccess m master region right => Sys2Proof.Machine.execWriteAccess m master region right s
  | .readAccess m => Sys2Proof.Machine.execReadAccess m s
  | .setNoticeMask m mask => Sys2Proof.Machine.execSetNoticeMask m mask s
  | .takeNotice m => Sys2Proof.Machine.execTakeNotice m s
  | .readNotices m => Sys2Proof.Machine.execReadNotices m s
  | .readResult m => Sys2Proof.Machine.execReadResult m s
  | .occupancyInputChange seat occupied => Sys2Proof.Machine.execOccupancyInputChange seat occupied s
  | .debounceExpiry seat => Sys2Proof.Machine.execDebounceExpiry seat s
  | .vacancyDelayExpiry seat => Sys2Proof.Machine.execVacancyDelayExpiry seat s
  | .clearTimeExpiry seat => Sys2Proof.Machine.execClearTimeExpiry seat s
  | .scanCompletion readings itotSum itotCount => Sys2Proof.Machine.execScanCompletion readings itotSum itotCount s
  | .zoneFrameStart zone => Sys2Proof.Machine.execZoneFrameStart zone s
  | .onWindowEnd zone current => Sys2Proof.Machine.execOnWindowEnd zone current s
  | .overcurrent zone current => Sys2Proof.Machine.execOvercurrent zone current s
  | .stepDown zone => Sys2Proof.Machine.execStepDown zone s
  | .tachPulse fan => Sys2Proof.Machine.execTachPulse fan s
  | .fanStall fan => Sys2Proof.Machine.execFanStall fan s
  | .retryTimerExpiry fan => Sys2Proof.Machine.execRetryTimerExpiry fan s
  | .cleanRunComplete fan => Sys2Proof.Machine.execCleanRunComplete fan s
  | .ceilingRefreshExpiry => Sys2Proof.Machine.execCeilingRefreshExpiry s
  | .supplySample reading => Sys2Proof.Machine.execSupplySample reading s
  | .manifoldSample sampleL sampleR => Sys2Proof.Machine.execManifoldSample sampleL sampleR s
  | .selectorArrival => Sys2Proof.Machine.execSelectorArrival s
  | .riseWindowExpiry => Sys2Proof.Machine.execRiseWindowExpiry s
  | .maximumFillExpiry => Sys2Proof.Machine.execMaximumFillExpiry s
  | .ventEnd owner => Sys2Proof.Machine.execVentEnd owner s
  | .cellBitError index => Sys2Proof.Machine.execCellBitError index s
  | .dwellEnd seat => Sys2Proof.Machine.execDwellEnd seat s
  | .programTimerExpiry seat => Sys2Proof.Machine.execProgramTimerExpiry seat s
  | .supportRefreshExpiry seat => Sys2Proof.Machine.execSupportRefreshExpiry seat s
  | .lossOfSupply => Sys2Proof.Machine.execLossOfSupply s

end Sys2Proof.Machine
end

