-- ==== Sys2Proof/Machine/Tick.lean ====
section
/-! DEFINITION. The passing of one millisecond (notes/assumptions/1.md): what the clock moves in every record. The part takes
its events as commands; here timers run and hold at 0, windows run out, and counts of time rise. -/
namespace Sys2Proof.Machine

/-- spec/01 R9, R11, R12. -/
def OccTimer.later : OccTimer → OccTimer
  | .stopped => .stopped
  | .vacancy t => .vacancy (t - 1)
  | .clear t => .clear (t - 1)

def SeatRecord.later (r : SeatRecord) : SeatRecord :=
  { r with debounceTimer := lessMs r.debounceTimer, timer := OccTimer.later r.timer }

/-- A zone's step-down time (spec/02 R40): a full minute adds 1, up to the step-down time. -/
def countMinute (limit : Nat) (c : ZoneChannel) : ZoneChannel :=
  if c.minuteMs + 1 < 60000 then { c with minuteMs := c.minuteMs + 1 }
  else { c with minuteMs := 0, minutes := min limit (c.minutes + 1) }

/-- The zone's window at the end of a slot (spec/02 R36, R37): the on-slots are counted up to the window's length. -/
def ZoneChannel.slotOver (c : ZoneChannel) : ZoneChannel :=
  if c.gate then { c with onSlots := min c.window (c.onSlots + 1) } else c

def zoneLater (s : State) (slot : Bool) (z : ZoneId) : ZoneChannel :=
  let c := s.zone z
  let counted := if countsDown s z then countMinute s.stepDownTime c else c
  if slot then counted.slotOver else counted

def zonesLater (s : State) (slot : Bool) (x : Seat) : Five ZoneChannel :=
  ⟨zoneLater s slot ⟨x, .cushion⟩, zoneLater s slot ⟨x, .backrest⟩, zoneLater s slot ⟨x, .neck⟩, zoneLater s slot ⟨x, .legRest⟩,
    zoneLater s slot ⟨x, .armrest⟩⟩

/-- spec/03 R49, R51, R53: a restarted fan's output is on from here. -/
def FanChannel.later (c : FanChannel) : FanChannel :=
  { c with
    restarted := false
    tachWatch := lessMs c.tachWatch
    retryTimer := lessMs c.retryTimer
    cleanRun := if c.state = .run ∧ 1 ≤ c.granted then min 60000 (c.cleanRun + 1) else c.cleanRun }

/-- spec/05 R104, R105, R112. -/
def Holder.later (h : Holder) : Holder :=
  { h with
    riseTimer := lessMs h.riseTimer
    fillTimer := lessMs h.fillTimer
    elapsed := if h.p0.isSome then h.elapsed + 1 else h.elapsed }

def Selector.later : Selector → Selector
  | .atRest p => .atRest p
  | .moving p t => .moving p (t - 1)

def VentOp.later (v : VentOp) : VentOp := { v with left := v.left - 1 }

def Pneumatic.later (p : Pneumatic) : Pneumatic :=
  { p with holder := p.holder.map Holder.later, selector := Selector.later p.selector, vents := p.vents.map VentOp.later }

/-- spec/07 R144, R147: both timers run in RUNNING and are held in PAUSED. -/
def Cursor.later (c : Cursor) : Cursor :=
  if c.state = .running then
    let timed := { c with phaseMs := c.phaseMs - 1 }
    if c.secondMs + 1 < 1000 then { timed with secondMs := c.secondMs + 1 }
    else { timed with secondMs := 0, seconds := c.seconds - 1 }
  else c

/-- spec/08 R165; no SET SUPPORT falls together with what comes later (spec/01 R7). -/
def Regulator.later (r : Regulator) : Regulator := { r with refresh := r.refresh - 1, cuts := Four.all none }

/-- spec/09 R177. -/
def BusLow.later (l : BusLow) : BusLow := { l with time := min 50 (l.time + 1) }

/-- spec/09 R176, R177: the transaction time runs while a transaction is open, the bus-low timer in every state. -/
def BusRecord.later (b : BusRecord) : BusRecord :=
  { b with
    time := if b.phase = .idle then b.time else min 750 (b.time + 1)
    low := b.low.map BusLow.later }

/-- spec/04 R60; no scan falls together with an earlier CLEAR DIAGNOSTICS (R67). -/
def Budget.later (b : Budget) : Budget := { b with refresh := lessMs b.refresh, stepPeak := none }

/-- One millisecond of a part with supply. No pass falls together with an earlier release (spec/05 R107). -/
def State.later (s : State) : State :=
  let slot := decide (10 ≤ s.frameMs + 1)
  { s with
    bus := s.bus.later
    seats := ⟨s.seats.left.later, s.seats.right.later⟩
    zones := ⟨zonesLater s slot .left, zonesLater s slot .right⟩
    frameMs := if slot then 0 else s.frameMs + 1
    frameSlot := if slot then (s.frameSlot + 1) % 100 else s.frameSlot
    scanTimer := s.scanTimer - 1
    fans := ⟨s.fans.left.map FanChannel.later, s.fans.right.map FanChannel.later⟩
    budget := s.budget.later
    supplyTimer := s.supplyTimer - 1
    manifoldTimer := s.manifoldTimer - 1
    pneu := s.pneu.later
    cursors := ⟨s.cursors.left.later, s.cursors.right.later⟩
    regulators := ⟨s.regulators.left.later, s.regulators.right.later⟩
    releases := .select }

/-- What the part does where no command waits: a millisecond passes, in a part with supply. -/
def tick (s : State) : State := if s.powered then s.later else s

end Sys2Proof.Machine
end

