-- ==== Sys2Proof/Safety.lean ====
section
/-! DEFINITION. The terms in which statements are made: what a pass and the reports it leads to cannot reach, what a master
puts on the wire for a command, and the invariants of a safe run. -/
namespace Sys2Proof.Machine

/-! ## Out of reach of a pass -/

/-- A zone channel without what a pass sets: the granted duty and the window it cuts. -/
def ZoneChannel.ungranted (c : ZoneChannel) : ZoneChannel := { c with grant := 0, window := 0, gate := false }

/-- A fan channel without what a pass sets: the granted level and the tach watch it starts and stops. -/
def FanChannel.ungranted (c : FanChannel) : FanChannel := { c with granted := 0, tachWatch := none }

/-- A seat record without what the reports of the pneumatic controller set. -/
def SeatRecord.unreported (r : SeatRecord) : SeatRecord := { r with setpoints := Four.all .zero, underfill := 0 }

/-- A master's notices without the pending set: the mask alone. -/
def NoticeBox.maskOnly (b : NoticeBox) : NoticeBox := { pending := [], mask := b.mask, line := false }

/-- The allocator's own fields without the result of a pass. -/
def Budget.unpassed (b : Budget) : Budget := { b with peak := 0, stepPeak := none, result := .powerOn }

/-- The state with everything erased that an allocation pass, or the reports that it leads to, may change: the granted
duties and levels, the allocation result, the pneumatic controller but its readings, the cursors but their intensity, speed
and origin, the regulators but their refresh timers, setpoints and underfill counts, notices, error weights and error log.
Two states with the same bystander agree in every setting, timer, parameter, right, mask and mode of the part. -/
def State.bystander (s : State) : State :=
  { s with
    seats := ⟨s.seats.left.unreported, s.seats.right.unreported⟩
    zones := ⟨s.zones.left.map ZoneChannel.ungranted, s.zones.right.map ZoneChannel.ungranted⟩
    fans := ⟨s.fans.left.map FanChannel.ungranted, s.fans.right.map FanChannel.ungranted⟩
    budget := s.budget.unpassed
    pneu := { Pneumatic.powerOn with manifold := s.pneu.manifold }
    ram := []
    log := .clear
    cursors := ⟨s.cursors.left.idled, s.cursors.right.idled⟩
    regulators := ⟨s.regulators.left.cleared, s.regulators.right.cleared⟩
    notices := ⟨s.notices.gateway.maskOnly, s.notices.leftPanel.maskOnly, s.notices.rightPanel.maskOnly⟩
    reports := []
    releases := .select }

/-- The air system is at rest: no request waits, no grant is held and no report is open. -/
def State.airQuiet (s : State) : Bool := s.pneu.queue.isEmpty && s.pneu.holder.isNone && s.reports.isEmpty

/-! ## Commands on the wire (spec/09 section 9.7) -/

/-- The two bytes of a half, high byte first. -/
def halfBytes (h : Half) : List Byte := twoBytes h.toNat

/-- WRITE STEP's fourteen data bytes. -/
def stepDataBytes (d : StepData) : List Byte :=
  [d.index, d.kind] ++ halfBytes d.vent ++ halfBytes d.fill ++ halfBytes d.target ++
    [d.dwell, d.nextMode, d.nextIndex, d.repeatMarker, d.repeatTarget, d.repeatCount]

/-- The master, command code and data of the frame that a write command's row stands for. -/
def writeFrameOf : Instr → Option (Master × Byte × List Byte)
  | .setZone m z l => some (m, 0x10, [z, l])
  | .setFan m f l => some (m, 0x11, [f, l])
  | .setSupport m x c v => some (m, 0x12, [x, c] ++ halfBytes v)
  | .startProgram m x p d => some (m, 0x13, [x, p, d])
  | .adjustProgram m x i v => some (m, 0x14, [x, i, v])
  | .pause m x => some (m, 0x15, [x])
  | .resume m x => some (m, 0x16, [x])
  | .stopProgram m x => some (m, 0x17, [x])
  | .resetSeats m => some (m, 0x18, [])
  | .setCeiling m c => some (m, 0x20, halfBytes c)
  | .writeStep m d => some (m, 0x30, stepDataBytes d)
  | .writeProgramEntry m p v f d => some (m, 0x31, [p, v, f, d])
  | .writeParameter m n v => some (m, 0x40, [n] ++ halfBytes v)
  | .clearDiagnostics m => some (m, 0x43, [])
  | .writeAccess m k r v => some (m, 0x50, [k, r, v])
  | .setNoticeMask m k => some (m, 0x60, halfBytes k)
  | _ => none

/-- The master, command code and parameters of the request frame that a read command's row stands for. -/
def readFrameOf : Instr → Option (Master × Byte × List Byte)
  | .readSeat m x p => some (m, 0x19, [x, p])
  | .readBudget m p => some (m, 0x21, [p])
  | .readStep m i => some (m, 0x32, [i])
  | .readProgramEntry m p => some (m, 0x33, [p])
  | .readParameter m n => some (m, 0x41, [n])
  | .readDiagnostics m p => some (m, 0x42, [p])
  | .readAccess m => some (m, 0x51, [])
  | .takeNotice m => some (m, 0x61, [])
  | .readNotices m => some (m, 0x62, [])
  | .readResult m => some (m, 0x70, [])
  | _ => none

/-- The bytes of a frame after its address byte: command, length, data and check byte (spec/09 R173, section 9.7.1). -/
def frameBytes (ads : BitVec 2) (m : Master) (code : Byte) (data : List Byte) : List Byte :=
  let head := code :: byteOf data.length :: data
  head ++ [checkByte (addressByte ads m false :: head)]

/-- The events of a write frame: START with the write address, each byte, STOP. -/
def writeEvents (ads : BitVec 2) (m : Master) (code : Byte) (data : List Byte) : List Instr :=
  .transactionStart (addressByte ads m false) :: (frameBytes ads m code data).map .frameByte ++ [.busStop]

/-- The events of a read transaction up to its response: START with the write address, each byte of the request, repeated
START with the read address. -/
def readEvents (ads : BitVec 2) (m : Master) (code : Byte) (data : List Byte) : List Instr :=
  .transactionStart (addressByte ads m false) :: (frameBytes ads m code data).map .frameByte ++
    [.repeatedStart (addressByte ads m true)]

/-- Commands taken one after another, up to the first stop. -/
def execAll : List Instr → State → Host.Outcome State Fault Refusal
  | [], s => .next s
  | c :: rest, s =>
    match exec c s with
    | .next t => execAll rest t
    | .fault f => .fault f
    | .refused r => .refused r

/-! ## Invariants -/

/-- `P` holds of the part, and of the part as a pass of this moment that withdraws the permission would find it (spec/05 R107). -/
def State.inEither (P : State → Prop) (s : State) : Prop := P s ∧ ∀ p, s.releases = .apart p → P (s.shutApart p)

/-- The store, the directory and the parameters stand in canonical form, and every parameter holds a value of its range. -/
abbrev State.stored (s : State) : Prop := Memory.wf s.ram = true ∧ Directory.wf s.directory = true ∧ Params.wf s.params = true

/-- The line is driven low exactly while the set holds a pair whose kind is not in the mask (spec/10 R187). -/
abbrev NoticeBox.exact (b : NoticeBox) : Prop := b.line = b.pending.any fun n => !masked b.mask n.kind

/-- A pending set in the order of choice, no two pairs with the same kind and seat (spec/10 R185, R188). -/
def ranksRise : List Notice → Prop
  | [] => True
  | n :: t => (∀ p ∈ t, n.rank < p.rank) ∧ ranksRise t

/-- The three masters' lines are exact and their sets hold each pair once. -/
def State.noticesSound (s : State) : Prop :=
  ∀ m, (s.notices.get m).exact ∧ ranksRise (s.notices.get m).pending

/-- C_eff is the manual's formula of C, the band cap and the derate steps (spec/04 R68). -/
abbrev State.ceilingExact (s : State) : Prop := s.budget.cEff = s.effectiveCeiling

/-- In a seat that is neither OCCUPIED nor VACATING every zone output and every fan output is off and asks for nothing
(spec/01 R15, spec/02 R43, spec/03 R54). -/
def State.idleSeatsOff (s : State) : Prop :=
  (∀ z : ZoneId, s.active z.seat = false → (s.zone z).gate = false ∧ (s.zone z).request = 0 ∧ (s.zone z).grant = 0) ∧
  ∀ f : FanId, s.active f.seat = false → (s.fan f).granted = 0 ∧ (s.fan f).demand = 0

/-- The GATEWAY's right over the ACCESS region is READ/WRITE (spec/09 R178). -/
abbrev State.gatewayRules (s : State) : Prop := (s.access.get .gateway).get .access = .readWrite

/-- The record of a transaction holds at most 35 received bytes (spec/09 R169, R170). -/
abbrev State.frameFits (s : State) : Prop := s.bus.received.length ≤ 35

/-- A pair names a seat exactly where its kind is a seat kind, and the panels hold seat kinds alone (spec/10 R185). -/
def State.noticesPlaced (s : State) : Prop :=
  ∀ m, ∀ n ∈ (s.notices.get m).pending, n.seat.isSome = n.kind.isSeatKind ∧ (m ≠ .gateway → n.kind.isSeatKind = true)

/-- No zone holds more duty than it asks for and no fan runs above the level it asks for (spec/02 R28, spec/03 R47). -/
def State.grantsWithinDemand (s : State) : Prop :=
  (∀ z : ZoneId, (s.zone z).grant ≤ (s.zone z).request) ∧ ∀ f : FanId, (s.fan f).granted ≤ (s.fan f).demand

/-- The allocation in force fits the effective ceiling unless its pass was STARVED (spec/04 R75). -/
abbrev State.allocationFits (s : State) : Prop :=
  s.budget.result.status ≠ .starved → s.budget.result.total ≤ s.budget.cEff

/-- The laws of the pump grant queue (spec/05 R94, R99): at most one entry per requester, and so at most four; the holder never
queued; every entry and the holder with a non-empty cell set and a target of 0 to 400; the rotation count within 0 to K. -/
def State.queueLaws (s : State) : Prop :=
  (s.pneu.queue.map (·.requester)).Nodup ∧ s.pneu.queue.length ≤ 4 ∧
  (∀ h, s.pneu.holder = some h →
    h.entry.cells ≠ 0 ∧ h.entry.target ≤ 400 ∧ ∀ e ∈ s.pneu.queue, e.requester ≠ h.entry.requester) ∧
  (∀ e ∈ s.pneu.queue, e.cells ≠ 0 ∧ e.target ≤ 400) ∧ s.pneu.rotation ≤ s.rotationLimit

/-- A grant is held only with the latest pass permitting the pump; the compressor is on only in FILLING, its holder's manifold
below 500 and the selector at rest at the holder's seat (spec/05 R90). -/
def State.compressorLaw (s : State) : Prop :=
  (s.pneu.holder.isSome = true → s.budget.result.permitted = true) ∧
  (s.pneu.compressor = true →
    ∃ h, s.pneu.holder = some h ∧ h.p0.isSome = true ∧ s.manifoldOf h.seat < 500 ∧
      s.pneu.selector = .atRest (seatPos h.seat))

/-- The cells that a requester may fill and vent (spec/05 R91). -/
def ownCells : Requester → CellSet
  | .massage _ => 0x0FFF
  | .support _ => 0xF000

/-- A step's cell sets are of M0 to M11 (spec/06 R113). -/
abbrev massageOnly (f : StepFields) : Prop := f.vent &&& 0xF000 = 0 ∧ f.fill &&& 0xF000 = 0

/-- Every entry, the holder and every requester's vent names cells of its requester alone, and every step record and step copy massage
cells alone (spec/05 R91, R94, spec/06 R113). -/
def State.cellsOwned (s : State) : Prop :=
  (∀ e ∈ s.pneu.queue, e.cells &&& ~~~ownCells e.requester = 0) ∧
  (∀ h, s.pneu.holder = some h → h.entry.cells &&& ~~~ownCells h.entry.requester = 0) ∧
  (∀ v ∈ s.pneu.vents, ∀ r, v.owner = .requester r → v.cells &&& ~~~ownCells r = 0) ∧
  (∀ (i : StepIndex) (f : StepFields), (s.ramRecord i).content = some f → massageOnly f) ∧
  ∀ (x : Seat) (f : StepFields), (s.cursor x).copy = some f → massageOnly f

/-- No cell is in FILL and under a running vent, so that no cell has both valves open (spec/05 R89). -/
def State.valvesApart (s : State) : Prop := ∀ x, filledCells s.pneu x &&& ventedCells s.pneu.vents x = 0

/-! ## Hypotheses and results of a command -/

/-- The part has supply, no report is open, and no release of the moment has granted an entry: as between commands that do not fall
together with such a release. What holds after one is said by ArbiterGrantsAndSuspends for every command (spec/05 R107). -/
abbrev State.awake (s : State) : Prop := s.powered = true ∧ s.reports = [] ∧ s.releases = .select

/-- The part is awake and answers on the bus (spec/09 R168). -/
abbrev State.onBus (s : State) : Prop := s.awake ∧ s.scanned = true

/-- The state with a write command's last-result record written and the bus idle, nothing else changed (spec/09 R175). -/
def State.recorded (s : State) (m : Master) (code : Byte) (seat : Option Seat) (r : ResultCode) : State :=
  { s with bus := .idle, results := s.results.set m { result := r, command := some code, seat := seat } }

/-- The state with a response ready to be clocked out to a master, `time` ms after its START, nothing else changed
(spec/09 R172). -/
def State.responding (s : State) (m : Master) (answer : List Byte) (time : Nat := 0) : State :=
  { s with
    bus := { BusRecord.idle with
      phase := .sending, master := some m, response := frameResponse s.ads m answer, ack := true, time := time
      low := some ⟨0, s.busLowLimit⟩ } }

/-- The pair stands in the pending set of every seat reader but the one left out (spec/10 R184). -/
def State.told (s t : State) (k : NoticeKind) (x : Seat) (d : Detail) (except : Option Master) : Prop :=
  ∀ m, s.mayRead m x.region = true → except ≠ some m → (⟨k, some x, d⟩ : Notice) ∈ (t.notices.get m).pending

/-- The pair stands in the GATEWAY's pending set (spec/10 R184). -/
abbrev State.toldGateway (t : State) (k : NoticeKind) (d : Detail) : Prop :=
  (⟨k, none, d⟩ : Notice) ∈ t.notices.gateway.pending

/-- The seat that a write command's last-result record names (spec/09 R175). -/
def targetSeat : Instr → Option Seat
  | .setZone _ z _ => (zoneOfCode z.toNat).map (·.seat)
  | .setFan _ f _ => (fanOfCode f.toNat).map (·.seat)
  | .setSupport _ x c _ => if 12 ≤ c.toNat ∧ c.toNat ≤ 15 then seatOfCode x.toNat else none
  | .startProgram _ x _ _ | .adjustProgram _ x _ _ | .pause _ x | .resume _ x | .stopProgram _ x => seatOfCode x.toNat
  | _ => none

/-- The regions a write command needs the WRITE right over; none where its target names nothing (spec/09 section 9.5). -/
def writeRegions : Instr → List Region
  | .setZone _ z _ => ((zoneOfCode z.toNat).map (·.seat.region)).toList
  | .setFan _ f _ => ((fanOfCode f.toNat).map (·.seat.region)).toList
  | .setSupport _ x c _ => if (cellOfCode c.toNat).isSome then ((seatOfCode x.toNat).map Seat.region).toList else []
  | .startProgram _ x _ _ | .adjustProgram _ x _ _ | .pause _ x | .resume _ x | .stopProgram _ x =>
    ((seatOfCode x.toNat).map Seat.region).toList
  | .resetSeats _ => [.leftSeat, .rightSeat]
  | .setCeiling _ _ => [.budget]
  | .writeStep _ _ | .writeProgramEntry _ _ _ _ _ => [.store]
  | .writeParameter _ _ _ | .clearDiagnostics _ => [.config]
  | .writeAccess _ _ _ _ => [.access]
  | _ => []

/-- The region a read command needs the READ right over (spec/09 section 9.5). -/
def readRegion : Instr → Option Region
  | .readSeat _ x _ => (seatOfCode x.toNat).map Seat.region
  | .readBudget _ _ => some .budget
  | .readStep _ _ | .readProgramEntry _ _ => some .store
  | .readParameter _ _ | .readDiagnostics _ _ => some .config
  | .readAccess _ => some .access
  | _ => none

/-- A write command's structural field names nothing (spec/01 R4 to R6, spec/07 R135). -/
def namesNothing : Instr → Bool
  | .setZone _ z _ => decide (9 < z.toNat)
  | .setFan _ f _ => decide (3 < f.toNat)
  | .setSupport _ x c _ => decide (1 < x.toNat) || decide (c.toNat < 12) || decide (15 < c.toNat)
  | .startProgram _ x _ _ | .adjustProgram _ x _ _ | .pause _ x | .resume _ x | .stopProgram _ x => decide (1 < x.toNat)
  | _ => false

/-- The commands that may rewrite the content of a step record: WRITE STEP, a STOP that ends its frame, and the loss and the
return of the supply, a sample below 6.0 V among them. -/
def rewritesStore : Instr → Bool
  | .writeStep _ _ | .busStop | .powerOn _ _ _ _ | .lossOfSupply => true
  | .supplySample v => decide (v < 60)
  | _ => false

end Sys2Proof.Machine
end

