-- ==== Sys2Proof/Certificates/Slice0/Obligations.lean ====
section
/-! DEFINITION. The statements for the provers. Each is about every state that meets its hypotheses, reached or not. A statement
that ends in `t.bystander = …` gives the whole of the next state but for what an allocation pass and the reports it leads to may
change; one that ends in `exec … = .next …` gives all of it. -/

open Sys2Proof Sys2Proof.Machine

/-! ## The machine -/

/-- A step with a command in front is that command's meaning on the state with the queue's rest. -/
def Obligations.StepTakesFrontCommand : Prop :=
  ∀ (c : Instr) (rest : List Instr) (s : State), s.pending = c :: rest → step s = exec c { s with pending := rest }

/-- THE MODEL'S CHOICE (notes/assumptions/1.md): with no command waiting one millisecond passes in a part with supply, and
nothing happens in one without. The frame counter runs 100 slots of 10 ms, running timers lose 1 ms and hold at 0, and all that is
not named here keeps its value. A zone of level 4 or 5 that heats counts its step-down time, a minute for each 60 s and the
step-down time at most, and holds it otherwise (R40); a gate that is on counts its slots up to the window (R36). The timers of the next
supply and manifold sample are the model's own (33.md). What falls together ends with the millisecond: a restarted fan's output is
on (40.md), no ended fill is kept (38.md), the grant of a release is not taken back (43.md) and no derate step is kept (47.md). -/
def Obligations.IdleStepPassesMillisecond : Prop :=
  (∀ s : State, s.pending = [] → s.powered = false → step s = .next s) ∧
  ∀ s : State, s.pending = [] → s.powered = true → ∃ t, step s = .next t ∧
    { t with
      bus := s.bus, seats := s.seats, zones := s.zones, fans := s.fans, pneu := s.pneu, cursors := s.cursors
      regulators := s.regulators } =
      { s with
        frameMs := if s.frameMs + 1 < 10 then s.frameMs + 1 else 0
        frameSlot := if s.frameMs + 1 < 10 then s.frameSlot else (s.frameSlot + 1) % 100
        scanTimer := s.scanTimer - 1, supplyTimer := s.supplyTimer - 1, manifoldTimer := s.manifoldTimer - 1
        budget := { s.budget with refresh := s.budget.refresh.map (· - 1), stepPeak := none }, releases := .select } ∧
    t.bus = { s.bus with
      time := if s.bus.phase = .idle then s.bus.time else min 750 (s.bus.time + 1)
      low := s.bus.low.map fun l => { l with time := min 50 (l.time + 1) } } ∧
    (∀ x, t.seat x = { s.seat x with
      debounceTimer := (s.seat x).debounceTimer.map (· - 1)
      timer := match (s.seat x).timer with
        | .stopped => .stopped
        | .vacancy left => .vacancy (left - 1)
        | .clear left => .clear (left - 1) }) ∧
    (∀ z,
      let counts := ((s.level z).value = 4 ∨ (s.level z).value = 5) ∧
        ((s.zone z).state = .heating ∨ (s.zone z).state = .limit ∨ (s.zone z).state = .degraded) ∧ 0 < s.stepDownTime
      t.zone z = { s.zone z with
        minuteMs :=
          if counts then (if (s.zone z).minuteMs + 1 < 60000 then (s.zone z).minuteMs + 1 else 0) else (s.zone z).minuteMs
        minutes :=
          if counts ∧ 60000 ≤ (s.zone z).minuteMs + 1 then min s.stepDownTime ((s.zone z).minutes + 1) else (s.zone z).minutes
        onSlots :=
          if 10 ≤ s.frameMs + 1 ∧ (s.zone z).gate = true then min (s.zone z).window ((s.zone z).onSlots + 1)
          else (s.zone z).onSlots }) ∧
    (∀ f, t.fan f = { s.fan f with
      restarted := false
      tachWatch := (s.fan f).tachWatch.map (· - 1), retryTimer := (s.fan f).retryTimer.map (· - 1)
      cleanRun := if (s.fan f).state = .run ∧ 1 ≤ (s.fan f).granted then min 60000 ((s.fan f).cleanRun + 1)
        else (s.fan f).cleanRun }) ∧
    t.pneu = { s.pneu with
      holder := s.pneu.holder.map fun h => { h with
        riseTimer := h.riseTimer.map (· - 1), fillTimer := h.fillTimer.map (· - 1)
        elapsed := if h.p0.isSome then h.elapsed + 1 else h.elapsed }
      selector := match s.pneu.selector with
        | .atRest p => .atRest p
        | .moving p left => .moving p (left - 1)
      vents := s.pneu.vents.map fun v => { v with left := v.left - 1 } } ∧
    (∀ x, (s.cursor x).state ≠ .running → t.cursor x = s.cursor x) ∧
    (∀ x, (s.cursor x).state = .running → t.cursor x = { s.cursor x with
      phaseMs := (s.cursor x).phaseMs - 1
      secondMs := if (s.cursor x).secondMs + 1 < 1000 then (s.cursor x).secondMs + 1 else 0
      seconds := if (s.cursor x).secondMs + 1 < 1000 then (s.cursor x).seconds else (s.cursor x).seconds - 1 }) ∧
    ∀ x, t.regulator x = { s.regulator x with refresh := (s.regulator x).refresh - 1, cuts := Four.all none }

/-! ## Power -/

/-- What reset leaves in the registers that chapters 1 to 10 give power-on values: seats, zones, fans, cursors, regulators,
selector, store, log, bus, results, the default rights of R178, masks and pending sets. -/
def Obligations.ResetHoldsPowerOnValues : Prop :=
  let s := State.reset
  (∀ x, (s.seat x).occupancy = .empty ∧ (s.seat x).debounced = false ∧ (s.seat x).timer = .stopped ∧
    (s.seat x).underfill = 0 ∧ s.override x = false) ∧
  (∀ z, s.level z = ⟨0, .device⟩ ∧ (s.zone z).temp = none ∧ (s.zone z).request = 0 ∧ (s.zone z).grant = 0 ∧
    (s.zone z).state = .standby ∧ (s.zone z).latch = false ∧ (s.zone z).window = 0 ∧ (s.zone z).faults = 0) ∧
  (∀ f, s.fanLevel f = ⟨0, .device⟩ ∧
    s.fan f = { state := .off, demand := 0, granted := 0, tachWatch := none, retryTimer := none, retries := 0,
                cleanRun := 0, restarted := false }) ∧
  (∀ x c, s.setpoint x c = ⟨0, .device⟩ ∧ s.need x c = .held ∧ s.faultMark x c = false) ∧
  (∀ x, (s.cursor x).state = .idle ∧ (s.cursor x).intensity = 3 ∧ (s.cursor x).speed = 2 ∧ (s.cursor x).origin = .device) ∧
  (∀ i : StepIndex, s.ramRecord i = { content := none, weight := 0 }) ∧
  s.log = { count := 0, firstCorrectable := none, firstUncorrectable := none, flag := false, reported := false } ∧
  s.budget.ceiling = 120 ∧ s.budget.refresh = none ∧ s.budget.derate = 0 ∧ s.budget.overdrawRun = 0 ∧
  s.pneu.holder = none ∧ s.pneu.compressor = false ∧ s.pneu.queue = [] ∧ s.pneu.vents = [] ∧ s.pneu.rotation = 0 ∧
  s.pneu.lastSeat = none ∧ s.pneu.selector = .moving .neutral 250 ∧ (∀ x, (s.regulator x).refresh = 120000) ∧
  s.access =
    { gateway := ⟨.readWrite, .readWrite, .readWrite, .readWrite, .readWrite, .readWrite⟩
      leftPanel := ⟨.readWrite, .read, .read, .read, .none, .read⟩
      rightPanel := ⟨.read, .readWrite, .read, .read, .none, .read⟩ } ∧
  s.bus.phase = .idle ∧ (∀ m, s.results.get m = { result := .ok, command := none, seat := none }) ∧
  (∀ m, (s.notices.get m).mask = 0) ∧ s.notices.gateway.pending = [⟨.retention, none, .nothing⟩] ∧
  s.notices.gateway.line = true ∧ s.notices.leftPanel = ⟨[], 0, false⟩ ∧ s.notices.rightPanel = ⟨[], 0, false⟩

/-- POWER_ON at a supply of 6.0 V or more: every block at its power-on value, the pins as they read, the band and the power-on
pass by the first sample (the shed ceiling 60 above the overhead 8, the STOP cap 0 below it). That the command carries the
sample is the model's choice (notes/assumptions/7.md). -/
def Obligations.PowerOnIsExact : Prop :=
  ∀ (ads : BitVec 2) (occL occR : Bool) (v : Nat) (s : State), 60 ≤ v →
    exec (.powerOn ads occL occR v) s = .next
      { State.reset with
        ads := ads
        seats := ⟨.powerOn occL, .powerOn occR⟩
        supply := { State.reset.supply with
          band := if v < 95 then .stop else if v < 115 then .shed else .normal, reading := min 255 v }
        budget := { State.reset.budget with
          cEff := if v < 95 then 0 else if v < 115 then 60 else 120
          result :=
            if v < 95 then
              { status := .starved, demandSeen := false, permitted := false, fanCap := 0, fanGrants := .both ⟨0, 0⟩,
                dutyCap := 0, grants := .both (Five.all 0), heater := 0, total := 8 }
            else
              { status := .full, demandSeen := false, permitted := false, fanCap := 3, fanGrants := .both ⟨0, 0⟩,
                dutyCap := 100, grants := .both (Five.all 0), heater := 0, total := 8 } }
        pending := s.pending }

/-- The loss of the supply, by the event or by a sample below 6.0 V, erases everything but the queue; without supply no other
command but POWER_ON changes anything. What a part without supply holds is the model's choice (notes/assumptions/5.md), and that
a sample below 6.0 V is the loss of the supply is read from the rules (notes/assumptions/8.md). -/
def Obligations.LossOfSupplyErases : Prop :=
  (∀ s : State, exec .lossOfSupply s = .next { State.reset with powered := false, pending := s.pending }) ∧
  (∀ (v : Nat) (s : State), s.awake → v < 60 →
    exec (.supplySample v) s = .next { State.reset with powered := false, pending := s.pending }) ∧
  (∀ (c : Instr) (s : State), s.powered = false → (∀ ads l r v, c ≠ .powerOn ads l r v) → c ≠ .lossOfSupply →
    exec c s = .next s)

/-! ## The cabin bus -/

/-- A write frame on the wire, START to STOP, byte for byte, does what the command's row does. That a row stands for its whole
transaction is the model's choice (notes/assumptions/4.md). Where a part
is kept apart (43.md), its address pins read the same. -/
def Obligations.WriteFrameIsItsCommand : Prop :=
  ∀ (i : Instr) (m : Master) (code : Byte) (data : List Byte) (s : State),
    writeFrameOf i = some (m, code, data) → s.reports = [] → (∀ p, s.releases = .apart p → p.ads = s.ads) →
    execAll (writeEvents s.ads m code data) s = exec i s

/-- A request frame on the wire and its repeated START do what the read command's row does. That a row stands for its transaction
up to the response is the model's choice (notes/assumptions/4.md). Where a part
is kept apart (43.md), its address pins read the same. -/
def Obligations.ReadFrameIsItsCommand : Prop :=
  ∀ (i : Instr) (m : Master) (code : Byte) (data : List Byte) (s : State),
    readFrameOf i = some (m, code, data) → s.reports = [] → (∀ p, s.releases = .apart p → p.ads = s.ads) →
    execAll (readEvents s.ads m code data) s = exec i s

/-- A START discards what is in progress; a write address opens a frame, a read address prepares the last result, any other
address is left alone; before the first scan every address is. Each byte of a frame is kept and acknowledged while fewer than 35
are held, and otherwise sets the overflow mark; outside RECEIVING nothing is taken from it. Each starts the bus-low timer afresh with
the parameter of the moment, in every state (R177), which is the model's reading of when a line may be low (notes/assumptions/13.md). -/
def Obligations.StartOpensAndFrameByteIsKept : Prop :=
  (∀ (m : Master) (s : State), s.onBus →
    exec (.transactionStart (addressByte s.ads m false)) s = .next
      { s with bus := { BusRecord.idle with
        phase := .receiving, master := some m, ack := true, low := some ⟨0, s.busLowLimit⟩ } }) ∧
  (∀ (m : Master) (s : State), s.onBus →
    exec (.transactionStart (addressByte s.ads m true)) s = .next (s.responding m (lastResultAnswer (s.results.get m)))) ∧
  (∀ (a : Byte) (s : State), s.onBus → (∀ m d, a ≠ addressByte s.ads m d) →
    exec (.transactionStart a) s = .next { s with bus := { BusRecord.idle with low := some ⟨0, s.busLowLimit⟩ } }) ∧
  (∀ (a : Byte) (s : State), s.awake → s.scanned = false →
    exec (.transactionStart a) s = .next { s with bus := { BusRecord.idle with low := some ⟨0, s.busLowLimit⟩ } }) ∧
  ∀ (b : Byte) (s : State), s.awake →
    (s.bus.phase = .receiving → s.bus.received.length < 35 →
      exec (.frameByte b) s = .next
        { s with bus := { s.bus with
          received := s.bus.received ++ [b], ack := true, low := some ⟨0, s.busLowLimit⟩ } }) ∧
    (s.bus.phase = .receiving → 35 ≤ s.bus.received.length →
      exec (.frameByte b) s = .next
        { s with bus := { s.bus with overflow := true, ack := false, low := some ⟨0, s.busLowLimit⟩ } }) ∧
    (s.bus.phase ≠ .receiving →
      exec (.frameByte b) s = .next { s with bus := { s.bus with low := some ⟨0, s.busLowLimit⟩ } })

/-- A frame that the bus interface refuses at STOP writes its master's last-result record and nothing else: LENGTH, then CHECK,
then UNKNOWN, then LENGTH for the command; an empty frame writes nothing; a frame that passes is taken by its command's owner, as
every command of the part is: with the reports it leads to, and the part kept apart where it makes the arbiter grant at a release
(notes/assumptions/43.md). -/
def Obligations.BusStopRefusesInOrder : Prop :=
  (∀ s : State, s.awake → (s.bus.phase ≠ .receiving ∨ (s.bus.received = [] ∧ s.bus.overflow = false)) →
    exec .busStop s = .next { s with bus := .idle }) ∧
  ∀ (s : State) (m : Master), s.awake → s.bus.phase = .receiving → s.bus.master = some m →
    let refused (r : ResultCode) : Prop := exec .busStop s = .next
      { s with bus := .idle, results := s.results.set m { result := r, command := s.bus.received.head?, seat := none } }
    let bytes := s.bus.received
    let misfit := s.bus.overflow = true ∨ bytes.length < 3 ∨ bytes.length ≠ (bytes.getD 1 0).toNat + 3
    let broken := checkByte (addressByte s.ads m false :: bytes.dropLast) ≠ bytes.getLastD 0
    ((bytes ≠ [] ∨ s.bus.overflow = true) → misfit → refused .length) ∧
    (¬ misfit → broken → refused .check) ∧
    (¬ misfit → ¬ broken → commandOfCode (bytes.headD 0).toNat = none → refused .unknown) ∧
    (∀ c, ¬ misfit → ¬ broken → commandOfCode (bytes.headD 0).toNat = some c → c.isRead = true → refused .unknown) ∧
    (∀ c, ¬ misfit → ¬ broken → commandOfCode (bytes.headD 0).toNat = some c → c.isRead = false →
      (bytes.getD 1 0).toNat ≠ c.dataLength → refused .length) ∧
    (∀ c, ¬ misfit → ¬ broken → commandOfCode (bytes.headD 0).toNat = some c → c.isRead = false →
      (bytes.getD 1 0).toNat = c.dataLength →
      exec .busStop s = taken (fun r => takeWrite m c ((bytes.drop 2).dropLast) { r with bus := .idle }) s)

/-- A repeated START inside a transaction: a write address begins a new frame, the read address of the same master answers, any
other address ends the transaction; in IDLE it is a START. A request that the bus interface refuses is answered with its result
code alone, LENGTH, then CHECK, then UNKNOWN, then LENGTH for the command; one that carries a write command is answered with the
last result; one that passes is answered by its owner. A repeated START while SENDING, and the bus-low timer that each leaves, are
read as the model's log says (notes/assumptions/16.md, 13.md). -/
def Obligations.RepeatedStartCases : Prop :=
  (∀ (a : Byte) (s : State), s.awake → s.bus.phase = .idle → exec (.repeatedStart a) s = exec (.transactionStart a) s) ∧
  (∀ (m : Master) (s : State), s.awake → s.bus.phase ≠ .idle →
    exec (.repeatedStart (addressByte s.ads m false)) s = .next
      { s with bus := { BusRecord.idle with
        phase := .receiving, master := some m, ack := true, time := s.bus.time, low := some ⟨0, s.busLowLimit⟩ } }) ∧
  (∀ (m : Master) (s : State), s.awake → s.bus.phase = .receiving → s.bus.master = some m →
    let again := Instr.repeatedStart (addressByte s.ads m true)
    let answered (a : List Byte) : Prop := exec again s = .next (s.responding m a s.bus.time)
    let bytes := s.bus.received
    let misfit := s.bus.overflow = true ∨ bytes.length < 3 ∨ bytes.length ≠ (bytes.getD 1 0).toNat + 3
    let broken := checkByte (addressByte s.ads m false :: bytes.dropLast) ≠ bytes.getLastD 0
    (misfit → answered [4]) ∧
    (¬ misfit → broken → answered [5]) ∧
    (¬ misfit → ¬ broken → commandOfCode (bytes.headD 0).toNat = none → answered [3]) ∧
    (∀ c, ¬ misfit → ¬ broken → commandOfCode (bytes.headD 0).toNat = some c → c.isRead = false →
      answered (lastResultAnswer (s.results.get m))) ∧
    (∀ c, ¬ misfit → ¬ broken → commandOfCode (bytes.headD 0).toNat = some c → c.isRead = true →
      (bytes.getD 1 0).toNat ≠ c.dataLength → answered [4]) ∧
    (∀ c, ¬ misfit → ¬ broken → commandOfCode (bytes.headD 0).toNat = some c → c.isRead = true →
      (bytes.getD 1 0).toNat = c.dataLength →
      exec again s = .next (settle reportBound (respond m (takeRead m c ((bytes.drop 2).dropLast) s))))) ∧
  (∀ (m : Master) (s : State), s.awake → s.bus.phase = .sending → s.bus.master = some m →
    exec (.repeatedStart (addressByte s.ads m true)) s =
      .next (s.responding m (lastResultAnswer (s.results.get m)) s.bus.time)) ∧
  (∀ (m : Master) (s : State), s.awake → s.bus.phase ≠ .idle → s.bus.master ≠ some m →
    exec (.repeatedStart (addressByte s.ads m true)) s = .next
      { s with bus := { BusRecord.idle with low := some ⟨0, s.busLowLimit⟩ } }) ∧
  ∀ (a : Byte) (s : State), s.awake → s.bus.phase ≠ .idle → (∀ m d, a ≠ addressByte s.ads m d) →
    exec (.repeatedStart a) s = .next { s with bus := { BusRecord.idle with low := some ⟨0, s.busLowLimit⟩ } }

/-- Response bytes go out one after another until the master leaves one unacknowledged or the response is over, then 0xFF; both
timeouts return the interface to IDLE and touch nothing else: the transaction's own only once its 750 ms have passed, the bus-low one
only once the limit taken when a line last went low has passed, and in IDLE never (R177). That the block holds the byte on SDA, and
that a line may be low from the last bus event on, is the model's choice (notes/assumptions/14.md, 13.md). -/
def Obligations.ResponseBytesAndTimeouts : Prop :=
  (∀ (ack : Bool) (s : State), s.awake → s.bus.phase = .sending → s.bus.released = false →
    s.bus.sent < s.bus.response.length →
    exec (.responseByte ack) s = .next
      { s with bus := { s.bus with
        sda := s.bus.response.getD s.bus.sent 0, sent := s.bus.sent + 1, released := !ack, low := some ⟨0, s.busLowLimit⟩ } }) ∧
  (∀ (ack : Bool) (s : State), s.awake → s.bus.phase = .sending → s.bus.released = false →
    s.bus.sent = s.bus.response.length →
    exec (.responseByte ack) s = .next
      { s with bus := { s.bus with sda := 0xFF, released := !ack, low := some ⟨0, s.busLowLimit⟩ } }) ∧
  (∀ (ack : Bool) (s : State), s.awake → s.bus.phase = .sending → s.bus.released = true →
    exec (.responseByte ack) s = .next { s with bus := { s.bus with sda := 0xFF, low := some ⟨0, s.busLowLimit⟩ } }) ∧
  (∀ (ack : Bool) (s : State), s.awake → s.bus.phase ≠ .sending →
    exec (.responseByte ack) s = .next { s with bus := { s.bus with low := some ⟨0, s.busLowLimit⟩ } }) ∧
  (∀ s : State, s.awake → 750 ≤ s.bus.time →
    exec .transactionTimeout s = .next { s with bus := { BusRecord.idle with low := s.bus.low } }) ∧
  (∀ s : State, s.awake → s.bus.time < 750 → exec .transactionTimeout s = .next s) ∧
  (∀ s : State, s.awake → s.bus.phase = .idle → exec .busLowTimeout s = .next s) ∧
  (∀ s : State, s.awake → (∀ l, s.bus.low = some l → l.time < l.limit) → exec .busLowTimeout s = .next s) ∧
  ∀ (l : BusLow) (s : State), s.awake → s.bus.phase ≠ .idle → s.bus.low = some l → l.limit ≤ l.time →
    exec .busLowTimeout s = .next { s with bus := { BusRecord.idle with low := some l } }

/-- A command whose target names nothing is refused with BADFIELD, one whose master lacks the right with DENIED; either way
nothing changes but the last-result record, and a denied read answers its result code alone. That READ SEAT checks the right before
its part, and that a SET SUPPORT to no holding cell names no seat, is the model's reading (notes/assumptions/15.md, 48.md). -/
def Obligations.RefusalsChangeNothing : Prop :=
  (∀ (i : Instr) (m : Master) (code : Byte) (data : List Byte) (s : State),
    writeFrameOf i = some (m, code, data) → s.onBus → namesNothing i = true →
    exec i s = .next (s.recorded m code (targetSeat i) .badField)) ∧
  (∀ (i : Instr) (m : Master) (code : Byte) (data : List Byte) (r : Region) (s : State),
    writeFrameOf i = some (m, code, data) → s.onBus → r ∈ writeRegions i → s.mayWrite m r = false →
    exec i s = .next (s.recorded m code (targetSeat i) .denied)) ∧
  ∀ (i : Instr) (m : Master) (code : Byte) (data : List Byte) (r : Region) (s : State),
    readFrameOf i = some (m, code, data) → s.onBus → readRegion i = some r → s.mayRead m r = false →
    exec i s = .next (s.responding m [2])

/-! ## Settings of a seat -/

/-- An accepted SET ZONE stores the level (5 at most) with its master as origin, restarts the step-down count, clears the latch and
gives the zone the state and request of its row, HEAT FAULT with cause SENSOR reaching the seat readers where it enters DEGRADED
(R29); CHANGED reaches the other seat readers; nothing else changes but for the pass, which runs (R76). -/
def Obligations.SetZoneStores : Prop :=
  ∀ (m : Master) (z : ZoneId) (level : Byte) (s : State), s.onBus → s.mayWrite m z.seat.region = true →
    let v := min 5 level.toNat
    let code : ResultCode := if level.toNat ≤ 5 then .ok else .clamped
    let r := (s.recorded m 0x10 (some z.seat) code).setLevel z ⟨v, m.origin⟩
    let armed := { s.zone z with latch := false, minutes := 0, minuteMs := 0 }
    ∃ t, exec (.setZone m (byteOf (zoneNumber z)) level) s = .next t ∧
      t.results = s.results.set m ⟨code, some 0x10, some z.seat⟩ ∧ t.level z = ⟨v, m.origin⟩ ∧
      (t.zone z).latch = false ∧ (t.zone z).minutes = 0 ∧ (t.zone z).minuteMs = 0 ∧
      (s.active z.seat = false → (t.zone z).state = .standby ∧ (t.zone z).request = 0 ∧ (t.zone z).grant = 0) ∧
      (s.active z.seat = true → v = 0 →
        (t.zone z).state = .off ∧ (t.zone z).request = 0 ∧ (t.zone z).grant = 0 ∧ (t.zone z).gate = false) ∧
      (s.active z.seat = true → v ≠ 0 → (s.zone z).state = .degraded ∨ (s.zone z).temp = none →
        (t.zone z).state = .degraded ∧ (t.zone z).request = s.openLoop v) ∧
      (s.active z.seat = true → v ≠ 0 → (s.zone z).state ≠ .degraded → (s.zone z).temp = none →
        s.told t .heatFault z.seat (.heatFault z .sensor) none) ∧
      (s.airQuiet = true → t.budget.result = allocate t.passInput) ∧
      (∀ c, (s.zone z).temp = some c → s.active z.seat = true → v ≠ 0 → (s.zone z).state ≠ .degraded →
        ((t.zone z).request, (t.zone z).state) =
          controlLaw (s.targetTemp v) (s.baseDuty v) s.gain s.limitDuty (s.surfaceLimit z) c) ∧
      s.told t .changed z.seat (.changed (.zone z)) (some m) ∧
      t.bystander = (r.setZone z (evaluateChannel r z armed).1).bystander

/-- The control law on integers: 0 and LIMIT from the surface limit on; otherwise the base duty with floor(Kp·e / 10), held to
0 to 100, and lowered to the limit duty within 20 of the limit. -/
def Obligations.ControlLawIsTheManuals : Prop :=
  ∀ (target base gain limitDuty limit : Nat) (m : Int),
    let raw : Int := (base : Int) + ((gain : Int) * ((target : Int) - m)) / 10
    let law := controlLaw target base gain limitDuty limit m
    ((limit : Int) ≤ m → law = (0, .limit)) ∧
    (m < (limit : Int) → (limit : Int) - 20 ≤ m →
      law.2 = .limit ∧ (law.1 : Int) = min (max 0 (min 100 raw)) limitDuty) ∧
    (m < (limit : Int) - 20 → law.2 = .heating ∧ (law.1 : Int) = max 0 (min 100 raw))

/-- An accepted SET FAN stores the level (3 at most) with its master as origin; the fan follows it: OFF at 0, RUN from OFF or
FAULT with its retries cleared on re-arm, RETRY WAIT kept; CHANGED reaches the other seat readers and a pass runs (R76). -/
def Obligations.SetFanStores : Prop :=
  ∀ (m : Master) (f : FanId) (level : Byte) (s : State), s.onBus → s.mayWrite m f.seat.region = true →
    let v := min 3 level.toNat
    let code : ResultCode := if level.toNat ≤ 3 then .ok else .clamped
    let was := (s.fan f).state
    let now : FanState := if v = 0 then .off else if was = .retryWait then .retryWait else .run
    let r := (s.recorded m 0x11 (some f.seat) code).setFanLevel f ⟨v, m.origin⟩
    ∃ t, exec (.setFan m (byteOf (fanNumber f)) level) s = .next t ∧
      t.results = s.results.set m ⟨code, some 0x11, some f.seat⟩ ∧ t.fanLevel f = ⟨v, m.origin⟩ ∧ (t.fan f).state = now ∧
      (t.fan f).demand = (if s.active f.seat = true ∧ now = .run then v else 0) ∧
      (t.fan f).retries = (if was = .fault then 0 else (s.fan f).retries) ∧
      (t.fan f).retryTimer = (if was = .retryWait ∧ v = 0 then none else (s.fan f).retryTimer) ∧
      s.told t .changed f.seat (.changed (.fan f)) (some m) ∧
      (s.airQuiet = true → t.budget.result = allocate t.passInput) ∧
      t.bystander = (r.setFan f (rederive (s.active f.seat) v (handLevel true v (s.fan f)))).bystander

/-- SET SUPPORT to an EMPTY seat stores the setpoint (350 at most), raises CHANGED and leaves the air system alone; a setpoint
above 0 for a faulted cell is refused with BADFIELD; in the other states the frame below holds, a lowered HELD cell is vented,
a raised HELD cell of a starved part waits in the queue, and a changed setpoint of the cell that is being filled ends the fill, whose
LEAK or OVERPRESSURE taken next still faults the cell (R7; SupportFillsEnd; notes/assumptions/38.md). -/
def Obligations.SetSupportStores : Prop :=
  ∀ (m : Master) (x : Seat) (c : HoldCell) (value : Half) (s : State), s.onBus → s.mayWrite m x.region = true →
    let v := min 350 value.toNat
    let code : ResultCode := if value.toNat ≤ 350 then .ok else .clamped
    let cmd := Instr.setSupport m (byteOf (seatCode x)) (byteOf (cellNumber c)) value
    let r := (s.recorded m 0x12 (some x) code).setSetpoint x c ⟨v, m.origin⟩
    (s.faultMark x c = true → 0 < value.toNat → exec cmd s = .next (s.recorded m 0x12 (some x) .badField)) ∧
    (s.faultMark x c = false ∨ value.toNat = 0 →
      ((s.seat x).occupancy = .empty →
        let told := raiseSeat .changed x (.changed (.cell c)) (some m) r
        exec cmd s = .next
          (if s.need x c = .vent then told else told.setNeed x c (if v = 0 then .held else .fill))) ∧
      (∃ t, exec cmd s = .next t ∧
        t.results = s.results.set m ⟨code, some 0x12, some x⟩ ∧
        (t.setpoint x c = ⟨v, m.origin⟩ ∨ (t.setpoint x c = ⟨0, .device⟩ ∧ t.faultMark x c = true)) ∧
        s.told t .changed x (.changed (.cell c)) (some m) ∧ t.bystander = r.bystander) ∧
      (∀ h p0, s.pneu.holder = some h → h.p0 = some p0 → h.entry.requester = .support x →
        (s.regulator x).service.cell = some c → s.need x c = .fill → (s.seat x).occupancy ≠ .empty →
        v ≠ (s.setpoint x c).value → s.queueLaws →
        ∃ t, exec cmd s = .next t ∧
          (t.regulator x).cuts.get c =
            some (((s.regulator x).cuts.get c).getD ⟨h.entry.target, p0, decide (h.riseTimer = some 0)⟩) ∧
          (∀ d, d ≠ c → (t.regulator x).cuts.get d = (s.regulator x).cuts.get d) ∧
          (v < (s.setpoint x c).value → t.need x c = .vent ∧ t.setpoint x c = ⟨v, m.origin⟩)) ∧
      ((s.seat x).occupancy ≠ .empty → v < (s.setpoint x c).value → s.need x c = .held →
        (s.regulator x).service.cell ≠ some c → s.airQuiet = true →
        ∃ t, exec cmd s = .next t ∧ t.setpoint x c = ⟨v, m.origin⟩ ∧ t.need x c = .vent ∧ ∃ op ∈ t.pneu.vents,
          op.owner = .requester (.support x) ∧ op.cells.getLsbD (cellNumber c) = true ∧ op.left = s.ventWindow) ∧
      ((s.seat x).occupancy ≠ .empty → (s.setpoint x c).value < v → s.need x c = .held → (s.regulator x).service = .free →
        (∀ k, (s.regulator x).needs.get k ≠ .fill) → s.airQuiet = true → s.budget.cEff ≤ s.overhead →
        ∃ t, exec cmd s = .next t ∧ t.setpoint x c = ⟨v, m.origin⟩ ∧ t.need x c = .fill ∧
          (t.regulator x).service = .waiting c ∧ t.pneu.queue = [⟨.support x, cellBit c, v, false⟩] ∧
          t.pneu.holder = none))

/-- An accepted RESET SEATS: every setting 0 with origin DEVICE, cursors IDLE at their power-on values, regulators at rest, no
grant, an empty queue, one RESET vent over all cells, zones and fans off, the seat notices replaced by CHANGED WHOLE SEAT at the
other readers; occupancy and its timers, manifold readings, temperatures, fault counts, the masks, the device-wide pairs but a
BUDGET LIMITED that the pass raises, and all else kept: ceiling, derate steps, overdraw run, supply, scan timer, frame counter, store,
parameters and rights (R19, R44, R84). That the end of a held grant brings a written parking into force is the model's reading
(notes/assumptions/42.md). -/
def Obligations.ResetSeatsClears : Prop :=
  ∀ (m : Master) (s : State), s.onBus → s.mayWrite m .leftSeat = true → s.mayWrite m .rightSeat = true →
    ∃ t, exec (.resetSeats m) s = .next t ∧
      t.results = s.results.set m ⟨.ok, some 0x18, none⟩ ∧
      (∀ z, t.level z = ⟨0, .device⟩ ∧
        t.zone z = { s.zone z with
          state := if s.active z.seat then .off else .standby
          streak := 0, request := 0, grant := 0, latch := false, openLoad := 0, window := 0, minutes := 0, minuteMs := 0
          gate := false, onSlots := 0, unjudged := false, carried := false }) ∧
      (∀ f, t.fanLevel f = ⟨0, .device⟩ ∧
        t.fan f = { state := .off, demand := 0, granted := 0, tachWatch := none, retryTimer := none, retries := 0,
                    cleanRun := 0, restarted := false }) ∧
      (∀ x c, t.setpoint x c = ⟨0, .device⟩) ∧
      (∀ x, (t.seat x).underfill = 0 ∧ (t.seat x).occupancy = (s.seat x).occupancy ∧ (t.seat x).timer = (s.seat x).timer ∧
        (t.seat x).debounced = (s.seat x).debounced ∧ (t.seat x).debounceTimer = (s.seat x).debounceTimer ∧
        (t.seat x).rawLevel = (s.seat x).rawLevel ∧
        t.cursor x = Cursor.powerOn ∧
        t.regulator x =
          { needs := Four.all .held, marks := Four.all false, service := .free, refresh := (s.regulator x).refresh
            cuts := Four.all none }) ∧
      t.pneu =
        { holder := none, compressor := false, manifold := s.pneu.manifold, queue := [], rotation := 0, lastSeat := none
          selector := match s.pneu.selector with
            | .atRest .neutral => .atRest .neutral
            | .moving .neutral left => .moving .neutral left
            | _ => .moving .neutral s.switchTime
          vents := [⟨.reset, 0xFFFF, s.ventWindow⟩]
          parkNone := if s.pneu.holder.isSome then s.parksNowhere else s.pneu.parkNone } ∧
      (∀ k, ∀ n ∈ (t.notices.get k).pending, n.kind.isSeatKind = true → n.kind = .changed ∧ n.detail = .changed .wholeSeat) ∧
      (∀ x, s.told t .changed x (.changed .wholeSeat) (some m)) ∧
      (∀ k, (t.notices.get k).mask = (s.notices.get k).mask ∧ ∀ n : Notice, n.kind.isSeatKind = false →
        n.kind ≠ .budgetLimited ∨ s.overhead < s.budget.cEff →
        (n ∈ (t.notices.get k).pending ↔ n ∈ (s.notices.get k).pending)) ∧
      { t with
        seats := s.seats, zones := s.zones, fans := s.fans, pneu := s.pneu, cursors := s.cursors, regulators := s.regulators
        notices := s.notices, budget := { t.budget with
          result := s.budget.result, peak := s.budget.peak, stepPeak := s.budget.stepPeak } } = s.recorded m 0x18 none .ok ∧
      t.budget.peak = max s.budget.peak s.overhead ∧ t.budget.stepPeak = s.budget.stepPeak.map (max · s.overhead) ∧
      (s.overhead < s.budget.cEff → t.budget.result =
        { status := .full, demandSeen := false, permitted := false, fanCap := 3, fanGrants := .both ⟨0, 0⟩, dutyCap := 100,
          grants := .both (Five.all 0), heater := 0, total := s.overhead }) ∧
      (s.budget.cEff ≤ s.overhead → t.budget.result.status = .starved ∧ t.budget.result.total = s.overhead)

/-! ## Programs -/

/-- START PROGRAM's refusals in their order, and an accepted start, from IDLE, RUNNING, PAUSED and FAULT alike: what the cursor was
doing is abandoned, an entry or a grant of its FILL WAIT or FILLING withdrawn from a lawful queue and its vent cancelled (R137); the
record is that of a new program, fault code, end cause and repeat counter cleared, at a first step of ROM or RAM that dwells, vents,
or asks for its fill, behind others or alone in a starved part; one that is BLANK or uncorrectable faults the cursor with the result
as it was. In every case intensity and speed are kept, the origin is the master's and CHANGED names the cursor. -/
def Obligations.StartProgramStarts : Prop :=
  ∀ (m : Master) (x : Seat) (program minutes : Byte) (s : State), s.onBus → s.mayWrite m x.region = true →
    let cmd := Instr.startProgram m (byteOf (seatCode x)) program minutes
    let e := s.dirEntry program.toNat
    let refused (r : ResultCode) : Prop := exec cmd s = .next (s.recorded m 0x13 (some x) r)
    let code : ResultCode := if minutes.toNat ≤ 60 then .ok else .clamped
    let span := if minutes.toNat = 0 then e.minutes else min 60 minutes.toNat
    (15 < program.toNat → refused .badField) ∧
    (program.toNat ≤ 15 → e.valid = false → refused .badField) ∧
    (program.toNat ≤ 15 → e.valid = true → s.active x = false → refused .vacant) ∧
    (program.toNat ≤ 15 → e.valid = true → s.active x = true → (s.cursor x).state = .ending → refused .busy) ∧
    (program.toNat ≤ 15 → e.valid = true → s.active x = true → (s.cursor x).state ≠ .ending →
      (∃ t, exec cmd s = .next t ∧ t.results = s.results.set m ⟨code, some 0x13, some x⟩ ∧
        s.told t .changed x (.changed .cursor) (some m) ∧
        t.bystander =
          ((s.recorded m 0x13 (some x) code).modCursor x fun c => { c with origin := m.origin }).bystander) ∧
      let c := s.cursor x
      let record : Option StepFields :=
        if e.first.toNat < 64 then some (romRecord e.first.toNat)
        else if (s.ramRecord e.first).weight ≤ 1 then (s.ramRecord e.first).content
        else none
      let others : List VentOp := s.pneu.vents.filter fun v => v.owner != .requester (.massage x)
      let released (t : State) : Prop :=
        c.state = .running → c.phase = .fillWait ∨ c.phase = .filling → s.queueLaws →
          (∀ q ∈ t.pneu.queue, q.requester ≠ .massage x) ∧ ∀ h, t.pneu.holder = some h → h.entry.requester ≠ .massage x
      (record = none →
        ∃ t, exec cmd s = .next t ∧ (t.cursor x).state = .fault ∧ (t.cursor x).step = some e.first ∧
          (t.cursor x).fault = (if (s.ramRecord e.first).weight ≤ 1 then FaultCode.blank else .store) ∧
          (⟨.requester (.massage x), 0x0FFF, s.ventWindow⟩ : VentOp) ∈ t.pneu.vents ∧
          (s.airQuiet = true → s.told t .airFault x (.massageFault (t.cursor x).fault e.first) none) ∧ released t) ∧
      ∀ f, record = some f →
        let dwell := if f.dwell = 0 then 0 else max 1 (f.dwell * speedPercent c.speed / 100)
        let fresh (phase : Phase) (hops ms : Nat) : Cursor :=
          { state := .running, phase := phase, program := some program.toNat, step := some e.first, copy := some f
            effTarget := min 400 (f.target * (50 + 10 * c.intensity) / 100), effDwell := dwell
            counter := none, hops := hops, seconds := 60 * span, secondMs := 0, phaseMs := ms
            intensity := c.intensity, speed := c.speed, origin := m.origin, fault := .none, cause := .none }
        let entry : Entry := ⟨.massage x, f.fill, (fresh .none 0 0).effTarget, false⟩
        (f.vent = 0 → f.fill = 0 → 0 < f.dwell →
          ∃ t, exec cmd s = .next t ∧ t.cursor x = fresh .dwell 0 (100 * dwell) ∧
            (∀ v ∈ t.pneu.vents, v.owner ≠ .requester (.massage x)) ∧ released t) ∧
        (f.vent ≠ 0 →
          ∃ t, exec cmd s = .next t ∧ t.cursor x = fresh .vent 0 0 ∧
            (⟨.requester (.massage x), f.vent, s.ventWindow⟩ : VentOp) ∈ t.pneu.vents ∧ released t) ∧
        (f.vent = 0 → f.fill ≠ 0 →
          (∀ h, s.pneu.holder = some h → h.entry.requester ≠ .massage x → s.pneu.queue ≠ [] →
            (∀ q ∈ s.pneu.queue, q.requester ≠ .massage x) →
            ∃ t, exec cmd s = .next t ∧ t.cursor x = fresh .fillWait 0 0 ∧
              t.pneu = { s.pneu with queue := s.pneu.queue ++ [entry], vents := others }) ∧
          (s.airQuiet = true → s.budget.cEff ≤ s.overhead →
            ∃ t, exec cmd s = .next t ∧ t.cursor x = fresh .fillWait 0 0 ∧
              t.pneu = { s.pneu with queue := [entry], vents := others })))

/-- ADJUST PROGRAM brings both values into range and stores them in every state; with result OK and the values already held it
changes nothing. -/
def Obligations.AdjustProgramStores : Prop :=
  ∀ (m : Master) (x : Seat) (intensity speed : Byte) (s : State), s.onBus → s.mayWrite m x.region = true →
    let i := max 1 (min 5 intensity.toNat)
    let v := max 1 (min 3 speed.toNat)
    let code : ResultCode := if i = intensity.toNat ∧ v = speed.toNat then .ok else .clamped
    let r := s.recorded m 0x14 (some x) code
    exec (.adjustProgram m (byteOf (seatCode x)) intensity speed) s = .next
      (if code = .ok ∧ (s.cursor x).intensity = i ∧ (s.cursor x).speed = v then r
       else raiseSeat .changed x (.changed .cursor) (some m)
        (r.modCursor x fun c => { c with intensity := i, speed := v, origin := m.origin }))

/-- PAUSE holds a RUNNING cursor in its phase and leaves no vent operation of a VENT phase, no entry and no grant of a FILL WAIT or
FILLING; RESUME runs a PAUSED one on; each leaves a cursor in another state as it was. A phase held in VENT vents afresh for a
whole window at RESUME; one held in FILL WAIT or FILLING becomes FILL WAIT with a new request, at the tail of a queue that waits
for another's grant, and alone in the queue of a starved part. -/
def Obligations.PauseAndResume : Prop :=
  (∀ (m : Master) (x : Seat) (s : State), s.onBus → s.mayWrite m x.region = true →
    let cmd := Instr.pause m (byteOf (seatCode x))
    let r := s.recorded m 0x15 (some x) .ok
    ((s.cursor x).state ≠ .running → exec cmd s = .next r) ∧
    ((s.cursor x).state = .running →
      ∃ t, exec cmd s = .next t ∧ t.cursor x = { s.cursor x with state := .paused, origin := m.origin } ∧
        s.told t .changed x (.changed .cursor) (some m) ∧
        t.bystander = (r.modCursor x fun c => { c with origin := m.origin }).bystander) ∧
    ((s.cursor x).state = .running → (s.cursor x).phase = .dwell →
      exec cmd s = .next (raiseSeat .changed x (.changed .cursor) (some m)
        (r.modCursor x fun c => { c with state := .paused, origin := m.origin }))) ∧
    ((s.cursor x).state = .running → (s.cursor x).phase = .vent →
      ∃ t, exec cmd s = .next t ∧ ∀ v ∈ t.pneu.vents, v.owner ≠ .requester (.massage x)) ∧
    ((s.cursor x).state = .running → (s.cursor x).phase = .fillWait ∨ (s.cursor x).phase = .filling → s.queueLaws →
      ∃ t, exec cmd s = .next t ∧ (∀ e ∈ t.pneu.queue, e.requester ≠ .massage x) ∧
        ∀ h, t.pneu.holder = some h → h.entry.requester ≠ .massage x)) ∧
  ∀ (m : Master) (x : Seat) (s : State), s.onBus → s.mayWrite m x.region = true →
    let cmd := Instr.resume m (byteOf (seatCode x))
    let r := s.recorded m 0x16 (some x) .ok
    ((s.cursor x).state ≠ .paused → exec cmd s = .next r) ∧
    ((s.cursor x).state = .paused →
      ∃ t, exec cmd s = .next t ∧ s.told t .changed x (.changed .cursor) (some m) ∧
        t.bystander = (r.modCursor x fun c => { c with origin := m.origin }).bystander) ∧
    ((s.cursor x).state = .paused → (s.cursor x).phase = .dwell →
      exec cmd s = .next (raiseSeat .changed x (.changed .cursor) (some m)
        (r.modCursor x fun c => { c with state := .running, origin := m.origin }))) ∧
    (∀ f, (s.cursor x).state = .paused → (s.cursor x).phase = .vent → (s.cursor x).copy = some f → f.vent ≠ 0 →
      s.airQuiet = true →
      ∃ t, exec cmd s = .next t ∧
        t.cursor x = { s.cursor x with state := .running, origin := m.origin, phaseMs := 0 } ∧
        (⟨.requester (.massage x), f.vent, s.ventWindow⟩ : VentOp) ∈ t.pneu.vents) ∧
    ∀ f, (s.cursor x).state = .paused → (s.cursor x).phase = .fillWait ∨ (s.cursor x).phase = .filling →
      (s.cursor x).copy = some f → f.fill ≠ 0 →
      let waits := { s.cursor x with state := .running, origin := m.origin, phase := .fillWait, phaseMs := 0 }
      let entry : Entry := ⟨.massage x, f.fill, min 400 (s.cursor x).effTarget, false⟩
      (∀ h, s.pneu.holder = some h → h.entry.requester ≠ .massage x → s.pneu.queue ≠ [] →
        (∀ e ∈ s.pneu.queue, e.requester ≠ .massage x) →
        ∃ t, exec cmd s = .next t ∧ t.cursor x = waits ∧ t.pneu = { s.pneu with queue := s.pneu.queue ++ [entry] }) ∧
      (s.airQuiet = true → s.budget.cEff ≤ s.overhead →
        ∃ t, exec cmd s = .next t ∧ t.cursor x = waits ∧ t.pneu = { s.pneu with queue := [entry] })

/-- STOP PROGRAM: no change in IDLE and ENDING, FAULT to IDLE, and RUNNING or PAUSED to ENDING with cause STOPPED and a vent over
M0 to M11 for a whole window, whatever else the air system does: an entry or a grant of a FILL WAIT or FILLING is withdrawn from a
lawful queue, and an air system at rest is left without a grant. -/
def Obligations.StopProgramEnds : Prop :=
  ∀ (m : Master) (x : Seat) (s : State), s.onBus → s.mayWrite m x.region = true →
    let cmd := Instr.stopProgram m (byteOf (seatCode x))
    let r := s.recorded m 0x17 (some x) .ok
    ((s.cursor x).state = .idle ∨ (s.cursor x).state = .ending → exec cmd s = .next r) ∧
    ((s.cursor x).state = .fault →
      exec cmd s = .next ((raiseSeat .changed x (.changed .cursor) (some m)
        (r.modCursor x fun c =>
          { Cursor.powerOn with intensity := c.intensity, speed := c.speed, origin := m.origin })))) ∧
    ((s.cursor x).state = .running ∨ (s.cursor x).state = .paused →
      ∃ t, exec cmd s = .next t ∧
        t.cursor x = { s.cursor x with
          state := .ending, phase := .none, counter := none, phaseMs := 0, cause := .stopped, origin := m.origin } ∧
        s.told t .changed x (.changed .cursor) (some m) ∧
        t.bystander = (r.modCursor x fun c => { c with origin := m.origin }).bystander ∧
        (⟨.requester (.massage x), 0x0FFF, s.ventWindow⟩ : VentOp) ∈ t.pneu.vents ∧
        ((s.cursor x).state = .running → (s.cursor x).phase = .fillWait ∨ (s.cursor x).phase = .filling → s.queueLaws →
          (∀ q ∈ t.pneu.queue, q.requester ≠ .massage x) ∧ ∀ h, t.pneu.holder = some h → h.entry.requester ≠ .massage x) ∧
        (s.airQuiet = true → t.pneu.holder = none))

/-! ## Budget commands and the allocation pass -/

/-- An accepted SET CEILING stores the value (600 at most), restarts the refresh timer, recomputes C_eff and runs a pass that fits
it; nothing else changes but for the pass. The hand-off of the pass, with no grant held and the pump not permitted: each zone takes
its granted duty, a lowered one cutting its window at once and a raised one leaving it (R28, R37, R38, R78); each fan takes its granted
level, its tach watch starting with 2 s where the output comes on and stopping where it goes off (R48, R49); the peak rises to the
total (R65); and BUDGET LIMITED is raised where the result is LIMITED or STARVED after a FULL one, and not otherwise (R80). -/
def Obligations.SetCeilingStores : Prop :=
  ∀ (m : Master) (value : Half) (s : State), s.onBus → s.mayWrite m .budget = true →
    let v := min 600 value.toNat
    let code : ResultCode := if value.toNat ≤ 600 then .ok else .clamped
    let timer := if s.refreshTime = 0 then none else some (1000 * s.refreshTime)
    let cEff := min v s.bandCap - 20 * s.budget.derate
    ∃ t, exec (.setCeiling m value) s = .next t ∧ t.results = s.results.set m ⟨code, some 0x20, none⟩ ∧
      t.budget.ceiling = v ∧ t.budget.refresh = timer ∧ t.budget.cEff = cEff ∧
      (cEff ≤ s.overhead → t.budget.result.status = .starved) ∧ (s.overhead < cEff → t.budget.result.total ≤ cEff) ∧
      (s.pneu.holder = none →
        let a := allocate ({ s with budget := { s.budget with cEff := cEff } } : State).passInput
        a.permitted = false →
        t.budget.result = a ∧ t.budget.peak = max s.budget.peak a.total ∧ t.pneu = s.pneu ∧
        (∀ z,
          let g := (a.grants.get z.seat).get z.part
          let c := s.zone z
          t.zone z =
            if g < c.grant then
              { c with grant := g, window := min c.window g, gate := decide (c.gate = true ∧ c.onSlots < g) }
            else { c with grant := g }) ∧
        (∀ f,
          let g := (a.fanGrants.get f.seat).get f.part
          t.fan f = { s.fan f with
            granted := g
            tachWatch := if g = 0 then none else if (s.fan f).granted = 0 then some 2000 else (s.fan f).tachWatch }) ∧
        (s.budget.result.status = .full → a.status ≠ .full →
          t.notices = (raiseDevice .budgetLimited
            (.limited (decide (a.dutyCap < 100)) (decide (a.demandSeen = true ∧ a.permitted = false)) a.dutyCap) s).notices ∧
          t.toldGateway .budgetLimited
            (.limited (decide (a.dutyCap < 100)) (decide (a.demandSeen = true ∧ a.permitted = false)) a.dutyCap)) ∧
        (s.budget.result.status ≠ .full ∨ a.status = .full → t.notices = s.notices)) ∧
      t.bystander =
        ({ s.recorded m 0x20 none code with
            budget := { s.budget with ceiling := v, refresh := timer, cEff := cEff } } : State).bystander

/-- The law of an allocation pass: what it grants, in hundredths, never exceeds what the ceiling leaves above the overhead;
nothing is granted at or below the overhead; the total fits the ceiling otherwise; the fan cap and the duty cap are the largest
that fit; the pump is permitted exactly where it is wanted and fits above the fan floor. -/
def Obligations.PassFitsCeiling : Prop :=
  ∀ p : PassInput,
    let a := allocate p
    let pump := if a.permitted then p.pump else 0
    let fans := PerSeat.sumPairs (PerSeat.mapPairs p.fanI a.fanGrants)
    let left := p.cEff - p.overhead - pump
    100 * (pump + fans) + weigh p.rated a.grants ≤ 100 * (p.cEff - p.overhead) ∧
    (p.cEff ≤ p.overhead → a.status = .starved ∧ a.permitted = false ∧ a.fanCap = 0 ∧ a.dutyCap = 0 ∧
      a.total = p.overhead) ∧
    (p.overhead < p.cEff →
      a.total ≤ p.cEff ∧ a.status ≠ .starved ∧
      a.fanGrants = PerSeat.mapPairs (min · a.fanCap) p.fans ∧ a.grants = PerSeat.mapFives (min · a.dutyCap) p.requests ∧
      (a.permitted = true ↔ p.demand = true ∧ p.pump + p.fanFloor ≤ p.cEff - p.overhead) ∧
      a.fanCap ≤ 3 ∧ (∀ k, a.fanCap < k → k ≤ 3 → left < p.fanSum k) ∧
      a.dutyCap ≤ 100 ∧ (∀ d, a.dutyCap < d → d ≤ 100 → 100 * (left - fans) < p.heatAt d) ∧
      a.heater = (weigh p.rated a.grants + 99) / 100 ∧ a.total = p.overhead + pump + fans + a.heater ∧
      (a.status = .limited ↔ a.dutyCap < 100 ∨ (p.demand = true ∧ a.permitted = false)))

/-- READ SEAT, READ BUDGET, READ DIAGNOSTICS, READ NOTICES, READ RESULT and READ PROGRAM ENTRY answer their fields and change
nothing else; a part beyond the last, and a program beyond 15, is answered with BADFIELD. The bytes are R183's as the model reads
it: listed values (notes/assumptions/17.md), marks and choices (18.md), the selector and the pneumatic part (19.md, 20.md), notices
(21.md), the budget parts (22.md), the occupancy timer (23.md). -/
def Obligations.PlainReadsAnswer : Prop :=
  (∀ (m : Master) (x : Seat) (part : Byte) (s : State), s.onBus → s.mayRead m x.region = true →
    exec (.readSeat m (byteOf (seatCode x)) part) s =
      .next (s.responding m (if part.toNat ≤ 3 then 0 :: seatPart s x part.toNat else [6]))) ∧
  (∀ (m : Master) (seat part : Byte) (s : State), s.onBus → 1 < seat.toNat →
    exec (.readSeat m seat part) s = .next (s.responding m [6])) ∧
  (∀ (m : Master) (part : Byte) (s : State), s.onBus → s.mayRead m .budget = true →
    exec (.readBudget m part) s = .next (s.responding m
      (if part = 0 then 0 :: ceilingPart s else if part = 1 then 0 :: resultPart s.budget.result else [6]))) ∧
  (∀ (m : Master) (part : Byte) (s : State), s.onBus → s.mayRead m .config = true →
    exec (.readDiagnostics m part) s = .next (s.responding m
      (if part = 0 then 0 :: storePart s.log else if part = 1 then 0 :: pneumaticPart s.pneu else [6]))) ∧
  (∀ (m : Master) (s : State), s.onBus →
    exec (.readNotices m) s = .next (s.responding m (0 :: twoBytes (s.notices.get m).mask.toNat ++
      byteOf (s.notices.get m).pending.length :: (s.notices.get m).pending.flatMap noticeBytes))) ∧
  (∀ (m : Master) (s : State), s.onBus →
    let r := s.results.get m
    exec (.readResult m) s = .next (s.responding m ([0, resultByte r.result] ++
      (match r.command with
        | none => [0]
        | some c => [1, c]) ++
      [(match r.seat with
        | some .left => 0
        | some .right => 1
        | none => 2 : Byte)]))) ∧
  ∀ (m : Master) (program : Byte) (s : State), s.onBus →
    (s.mayRead m .store = false → exec (.readProgramEntry m program) s = .next (s.responding m [2])) ∧
    (s.mayRead m .store = true → 15 < program.toNat →
      exec (.readProgramEntry m program) s = .next (s.responding m [6])) ∧
    (s.mayRead m .store = true → program.toNat ≤ 15 →
      let e := s.dirEntry program.toNat
      exec (.readProgramEntry m program) s = .next (s.responding m
        [0, if e.valid then 0 else 1, e.first, byteOf e.minutes, if program.toNat < 4 then 0 else 1]))

/-- The fields of READ SEAT, READ BUDGET and READ DIAGNOSTICS in the order of R17, R81, R130 and R112, each part of a read by a
master with the right. A value takes one byte or two, high byte first; of two values the one listed first is 0; an absent one is a
presence byte 0. The codings are R183's as the model reads it (notes/assumptions/17.md, 18.md, 19.md, 20.md, 22.md, 23.md). -/
def Obligations.ReadFieldsAreListed : Prop :=
  ∀ (m : Master) (s : State), s.onBus →
    let first (b : Bool) : Byte := if b then 0 else 1
    let maybe (o : Option (List Byte)) : List Byte :=
      match o with
      | none => [0]
      | some l => 1 :: l
    let origin (o : Origin) : Byte :=
      match o with
      | .gateway => 0
      | .leftPanel => 1
      | .rightPanel => 2
      | .device => 3
    let occupancy (o : Occupancy) : Byte :=
      match o with
      | .occupied => 0
      | .vacating => 1
      | .standby => 2
      | .empty => 3
    let zoneState (z : ZoneState) : Byte :=
      match z with
      | .off => 0
      | .heating => 1
      | .limit => 2
      | .degraded => 3
      | .fault => 4
      | .standby => 5
    let fanState (f : FanState) : Byte :=
      match f with
      | .off => 0
      | .run => 1
      | .retryWait => 2
      | .fault => 3
    let cursorState (c : CursorState) : Byte :=
      match c with
      | .idle => 0
      | .running => 1
      | .paused => 2
      | .ending => 3
      | .fault => 4
    let status (v : PassStatus) : Byte :=
      match v with
      | .full => 0
      | .limited => 1
      | .starved => 2
    let requester (r : Requester) : Byte :=
      match r with
      | .massage .left => 0
      | .massage .right => 1
      | .support .left => 2
      | .support .right => 3
    let seatByte (x : Seat) : Byte := if x = .left then 0 else 1
    let position (p : SelPos) : Byte := if p = .neutral then 0 else if p = .left then 1 else 2
    let p := s.pneu
    let valve (x : Seat) (k : Nat) : Byte :=
      let filled :=
        match p.holder with
        | some h => h.p0.isSome && decide (h.entry.requester.seat = x) && h.entry.cells.getLsbD k
        | none => false
      if filled then 1
      else if p.vents.any fun v => v.owner.covers x && v.cells.getLsbD k then 2
      else 0
    let cells : List Nat := [0, 1, 2, 3, 4, 5, 6, 7, 8, 9, 10, 11, 12, 13, 14, 15]
    let answers (i : Instr) (fields : List Byte) : Prop := exec i s = .next (s.responding m (0 :: fields))
    (∀ x, s.mayRead m x.region = true →
      let seat := byteOf (seatCode x)
      let r := s.seat x
      let c := s.cursor x
      answers (.readSeat m seat 0)
        ([occupancy r.occupancy, first r.debounced, byteOf (s.param (overrideNumber x))] ++
        (match r.timer with
          | .stopped => [0, 0, 0]
          | .vacancy ms => 1 :: twoBytes (ms / 1000)
          | .clear ms => 2 :: twoBytes (ms / 1000)) ++ [byteOf r.underfill]) ∧
      answers (.readSeat m seat 1)
        ([HeatPart.cushion, .backrest, .neck, .legRest, .armrest].flatMap fun part =>
          let z : ZoneId := ⟨x, part⟩
          [byteOf (s.level z).value, origin (s.level z).origin, zoneState (s.zone z).state] ++
          maybe ((s.zone z).temp.map fun v => twoBytes (BitVec.ofInt 16 v).toNat) ++
          [byteOf (s.zone z).request, byteOf (s.zone z).grant, byteOf (s.zone z).minutes, byteOf (s.zone z).faults]) ∧
      answers (.readSeat m seat 2)
        (([FanPart.cushion, .backrest].flatMap fun part =>
          let f : FanId := ⟨x, part⟩
          [byteOf (s.fanLevel f).value, origin (s.fanLevel f).origin, byteOf (s.fan f).granted,
            fanState (s.fan f).state, byteOf (s.fan f).retries]) ++
        [HoldCell.l0, .l1, .s0, .s1].flatMap fun k =>
          twoBytes (s.setpoint x k).value ++
            [origin (s.setpoint x k).origin, if s.faultMark x k then 1 else 0, valve x (cellNumber k)]) ∧
      answers (.readSeat m seat 3)
        ([cursorState c.state] ++
        (match c.phase with
          | .none => [0]
          | .vent => [1, 1]
          | .fillWait => [1, 2]
          | .filling => [1, 3]
          | .dwell => [1, 4]) ++
        maybe (c.program.map fun n => [byteOf n]) ++ maybe (c.step.map fun i => [i]) ++ twoBytes c.seconds ++
        [byteOf c.intensity, byteOf c.speed, origin c.origin] ++
        match c.fault with
        | .none => [0]
        | .store => [1, 1]
        | .blank => [1, 2]
        | .leak => [1, 3]
        | .overpressure => [1, 4]
        | .nest => [1, 5]
        | .loop => [1, 6])) ∧
    (s.mayRead m .budget = true →
      let b := s.budget
      let a := b.result
      answers (.readBudget m 0)
        (twoBytes b.ceiling ++ maybe (b.refresh.map fun ms => twoBytes ((ms + 99) / 100)) ++
        (match s.supply.band with
          | .normal => [0, byteOf s.supply.reading, 0]
          | .shed => [1, byteOf s.supply.reading, 1] ++ twoBytes s.shedCeiling
          | .stop => [2, byteOf s.supply.reading, 1, 0, 0]) ++
        [byteOf b.derate, byteOf b.overdrawRun] ++ twoBytes s.supply.measured ++ twoBytes b.peak ++ twoBytes b.cEff) ∧
      answers (.readBudget m 1)
        ([status a.status, first a.demandSeen, first a.permitted, byteOf a.fanCap,
          byteOf a.fanGrants.left.cushion, byteOf a.fanGrants.left.backrest, byteOf a.fanGrants.right.cushion,
          byteOf a.fanGrants.right.backrest, byteOf a.dutyCap,
          byteOf a.grants.left.cushion, byteOf a.grants.left.backrest, byteOf a.grants.left.neck,
          byteOf a.grants.left.legRest, byteOf a.grants.left.armrest,
          byteOf a.grants.right.cushion, byteOf a.grants.right.backrest, byteOf a.grants.right.neck,
          byteOf a.grants.right.legRest, byteOf a.grants.right.armrest] ++ twoBytes a.heater ++ twoBytes a.total)) ∧
    (s.mayRead m .config = true →
      answers (.readDiagnostics m 0)
        ([byteOf s.log.count] ++ maybe (s.log.firstCorrectable.map fun i => [i]) ++
        maybe (s.log.firstUncorrectable.map fun i => [i]) ++
        [if s.log.flag then 1 else 0, if s.log.reported then 1 else 0]) ∧
      answers (.readDiagnostics m 1)
        ((match p.holder with
          | none => [0, 0]
          | some h =>
            [if h.p0.isSome then 2 else 1, 1, requester h.entry.requester] ++ twoBytes h.entry.cells.toNat ++
            twoBytes h.entry.target ++ [first h.entry.resumed] ++ maybe (h.p0.map twoBytes) ++
            [if h.p0.isSome then byteOf (min 255 (h.elapsed / 100)) else 0]) ++
        [first p.compressor] ++
        (match p.selector with
          | .atRest q => [position q]
          | .moving q left => [3, position q] ++ twoBytes left) ++
        [byteOf p.rotation] ++ maybe (p.lastSeat.map fun x => [seatByte x]) ++ [byteOf p.queue.length] ++
        (p.queue.flatMap fun e =>
          [requester e.requester] ++ twoBytes e.cells.toNat ++ twoBytes e.target ++
            [first e.resumed, first (decide (ventedCells p.vents e.requester.seat &&& e.cells = 0))]) ++
        twoBytes p.manifold.left ++ twoBytes p.manifold.right ++ cells.map (valve .left) ++ cells.map (valve .right) ++
        p.vents.flatMap fun v =>
          (match v.owner with
            | .requester r => [requester r, seatByte r.seat]
            | .relief .left => [4, 0]
            | .relief .right => [5, 1]
            | .reset => [6, 2]) ++ twoBytes v.cells.toNat ++ twoBytes v.left))

/-! ## Store commands -/

/-- An accepted WRITE STEP makes the record BLANK or the carried one at weight 0; an accepted WRITE PROGRAM ENTRY writes its
entry; each leaves every other record and entry as it was, and nothing else changes. The refusals stand in their orders. -/
def Obligations.StoreWritesAreExact : Prop :=
  (∀ (m : Master) (d : StepData) (s : State), s.onBus → s.stored → s.mayWrite m .store = true →
    let refused (r : ResultCode) : Prop := exec (.writeStep m d) s = .next (s.recorded m 0x30 none r)
    let bad := d.vent &&& 0xF000 ≠ 0 ∨ d.fill &&& 0xF000 ≠ 0 ∨ 1 < d.nextMode.toNat ∨
      (d.repeatMarker ≠ 0 ∧ (d.repeatCount = 0 ∨ 15 < d.repeatCount.toNat))
    let wrote (c : Content) (r : ResultCode) : Prop :=
      ∃ t, exec (.writeStep m d) s = .next t ∧ t.ramRecord d.index = ⟨c, 0⟩ ∧
        (∀ i, i ≠ d.index → t.ramRecord i = s.ramRecord i) ∧ { t with ram := s.ram } = s.recorded m 0x30 none r
    (d.index.toNat < 64 → refused .readOnly) ∧
    (64 ≤ d.index.toNat → d.kind ≠ 1 → d.kind ≠ 2 → refused .badField) ∧
    (64 ≤ d.index.toNat → d.kind = 1 → bad → refused .badField) ∧
    (64 ≤ d.index.toNat → d.kind = 2 → wrote none .ok) ∧
    (64 ≤ d.index.toNat → d.kind = 1 → ¬ bad →
      wrote
        (some
          { vent := d.vent, fill := d.fill, target := min 400 d.target.toNat, dwell := d.dwell.toNat
            next := if d.nextMode = 0 then none else some d.nextIndex
            again := if d.repeatMarker = 0 then none else some ⟨d.repeatTarget, d.repeatCount.toNat⟩ })
        (if d.target.toNat ≤ 400 then .ok else .clamped))) ∧
  ∀ (m : Master) (program validity first minutes : Byte) (s : State), s.onBus → s.stored → s.mayWrite m .store = true →
    let cmd := Instr.writeProgramEntry m program validity first minutes
    let refused (r : ResultCode) : Prop := exec cmd s = .next (s.recorded m 0x31 none r)
    let v := max 1 (min 60 minutes.toNat)
    (15 < program.toNat → refused .badField) ∧
    (program.toNat ≤ 3 → refused .readOnly) ∧
    (4 ≤ program.toNat → program.toNat ≤ 15 → 1 < validity.toNat → refused .badField) ∧
    (4 ≤ program.toNat → program.toNat ≤ 15 → validity.toNat ≤ 1 →
      ∃ t, exec cmd s = .next t ∧ t.dirEntry program.toNat = ⟨validity == 0, first, v⟩ ∧
        (∀ n, n ≠ program.toNat → t.dirEntry n = s.dirEntry n) ∧
        { t with directory := s.directory } =
          s.recorded m 0x31 none (if v = minutes.toNat then .ok else .clamped))

/-- READ STEP of a ROM record or a clean one answers and changes nothing; of a correctable one it answers the content, writes the
record back clean and counts; of an uncorrectable one it answers UNCORRECTABLE and flags; a new mark and each failure raise
STORE ERROR. The codes of range, corrected mark and record state are R183's as the model reads it (notes/assumptions/18.md). -/
def Obligations.ReadStepChecks : Prop :=
  ∀ (m : Master) (i : Byte) (s : State), s.onBus → s.mayRead m .store = true →
    let fields (f : StepFields) : List Byte := 1 :: (twoBytes f.vent.toNat ++ twoBytes f.fill.toNat ++ twoBytes f.target ++
      [byteOf f.dwell] ++
      (match f.next with
        | none => [0]
        | some n => [1, n]) ++
      match f.again with
        | none => [0]
        | some r => [1, r.target, byteOf r.count])
    let content (c : Content) : List Byte :=
      match c with
      | none => [0]
      | some f => fields f
    (i.toNat < 64 → exec (.readStep m i) s = .next (s.responding m ([0, 0] ++ fields (romRecord i.toNat)))) ∧
    (64 ≤ i.toNat → (s.ramRecord i).weight = 0 →
      exec (.readStep m i) s = .next (s.responding m ([0, 1, 0] ++ content (s.ramRecord i).content))) ∧
    (64 ≤ i.toNat → (s.ramRecord i).weight = 1 →
      let fixed := { s.putRam i ⟨(s.ramRecord i).content, 0⟩ with
        log := { s.log with
          count := min 255 (s.log.count + 1), firstCorrectable := some (s.log.firstCorrectable.getD i), reported := true } }
      let told := if s.log.reported = true then fixed else raiseDevice .storeError (.storeError true i) fixed
      exec (.readStep m i) s = .next (told.responding m ([0, 1, 1] ++ content (s.ramRecord i).content))) ∧
    (64 ≤ i.toNat → 2 ≤ (s.ramRecord i).weight →
      exec (.readStep m i) s = .next ((raiseDevice .storeError (.storeError false i)
        { s with log := { s.log with
          firstUncorrectable := some (s.log.firstUncorrectable.getD i), flag := true } }).responding m [10]))

/-- CLEAR DIAGNOSTICS clears the log, the derate steps and the overdraw run; with no derate step that is all; with one, C_eff is
recomputed and a pass runs, whose result is the allocation of the inputs as they then stand. A scan of the same moment, taken second,
that would have taken a derate step takes d from 0 to 1 (R67): that the step is kept beside the cleared run, with the peak of the
interval, is the model's reading (notes/assumptions/47.md), as is the form of the scan's mean (11.md). -/
def Obligations.ClearDiagnosticsClears : Prop :=
  ∀ (m : Master) (s : State), s.onBus → s.mayWrite m .config = true →
    let due := if 2 ≤ s.budget.overdrawRun then some s.budget.peak else s.budget.stepPeak
    let r := { s.recorded m 0x43 none .ok with
      log := ErrorLog.clear, budget := { s.budget with derate := 0, overdrawRun := 0, stepPeak := due } }
    (s.budget.derate = 0 → exec (.clearDiagnostics m) s = .next r) ∧
    (s.budget.derate ≠ 0 → ∃ t, exec (.clearDiagnostics m) s = .next t ∧ t.budget.derate = 0 ∧ t.budget.overdrawRun = 0 ∧
      t.budget.cEff = min s.budget.ceiling s.bandCap ∧
      (s.airQuiet = true → t.log = ErrorLog.clear ∧ t.ram = s.ram ∧ t.budget.result = allocate t.passInput ∧
        t.budget.stepPeak = due) ∧
      t.bystander = ({ r with budget := { r.budget with cEff := min s.budget.ceiling s.bandCap } } : State).bystander) ∧
    ∀ (v : PerSeat (Five Int)) (sum count : Nat), s.airQuiet = true → 2 ≤ s.budget.overdrawRun →
      let mean := min 1000 ((s.supply.itotSum + sum) / (s.supply.itotCount + count))
      0 < s.supply.itotCount + count → s.budget.peak + s.overdrawMargin < mean →
      ∃ t u, exec (.clearDiagnostics m) s = .next t ∧ exec (.scanCompletion v sum count) t = .next u ∧
        u.budget.derate = 1 ∧ u.budget.overdrawRun = 0 ∧ u.budget.cEff = min s.budget.ceiling s.bandCap - 20 ∧
        u.toldGateway .overdraw (.overdraw 1 mean s.budget.peak)

/-! ## Parameters -/

/-- An accepted WRITE PARAMETER stores the nearest allowed value and leaves every other parameter as it was; a parameter whose
owner does nothing at a write changes nothing else. A surface limit re-judges its zone in closed loop, and a pass follows where the
state changes (R39); the currents a pass weighs by start a pass; the step-down time acts on every zone at once, by the model's
reading (notes/assumptions/29.md); the ceiling refresh time 0 stops the refresh timer; the shed ceiling recomputes C_eff and starts a
pass; the rotation limit lowers the count; parking LAST is in force at once; an override set ON brings its seat to OCCUPIED, one
set OFF brings an OCCUPIED seat that the input shows vacant to VACATING (R10). -/
def Obligations.WriteParameterStores : Prop :=
  ∀ (m : Master) (number : Byte) (value : Half) (s : State), s.onBus → s.stored → s.mayWrite m .config = true →
    let n := number.toNat
    let v := nearestAllowed (paramRange n) value.toNat
    let code : ResultCode := if v = value.toNat then .ok else .clamped
    let r := (s.recorded m 0x40 none code).putParam n v
    let cmd := Instr.writeParameter m number value
    (59 < n → exec cmd s = .next (s.recorded m 0x40 none .badField)) ∧
    (n ≤ 59 → ∃ t, exec cmd s = .next t ∧ t.results = s.results.set m ⟨code, some 0x40, none⟩ ∧ t.param n = v ∧
      ∀ k, k ≠ n → t.param k = s.param k) ∧
    (n ≤ 12 ∨ (23 ≤ n ∧ n ≤ 27) ∨ n = 43 ∨ (47 ≤ n ∧ n ≤ 51) ∨ n = 54 ∨ n = 55 ∨ n = 58 ∨ n = 59 →
      exec cmd s = .next r) ∧
    (∀ z, n = 13 + zoneNumber z →
      let c := s.zone z
      (c.state ≠ .heating → c.state ≠ .limit → exec cmd s = .next r) ∧
      ∀ temp, c.state = .heating ∨ c.state = .limit → c.temp = some temp → c.latch = false → s.active z.seat = true →
        (s.level z).value ≠ 0 →
        let level := (s.level z).value
        let law := controlLaw (s.targetTemp level) (s.baseDuty level) s.gain s.limitDuty v temp
        let judged := { c with request := law.1, state := law.2 }
        ∃ t, exec cmd s = .next t ∧ t.bystander = (r.setZone z judged).bystander ∧
          (law.1 < c.grant → (t.zone z).grant ≤ law.1) ∧
          (law.2 = c.state → t.budget = s.budget ∧ (c.grant ≤ law.1 → exec cmd s = .next (r.setZone z judged))) ∧
          (law.2 ≠ c.state → s.airQuiet = true → t.budget.result = allocate (r.setZone z judged).passInput)) ∧
    (n = 42 → exec cmd s = .next (if v = 0 then { r with budget := { r.budget with refresh := none } } else r)) ∧
    (n = 52 → exec cmd s = .next { r with pneu := { r.pneu with rotation := min s.pneu.rotation v } }) ∧
    (n = 53 → exec cmd s = .next (if v = 0 then { r with pneu := { r.pneu with parkNone := false } } else r)) ∧
    ((28 ≤ n ∧ n ≤ 37) ∨ (39 ≤ n ∧ n ≤ 41) ∨ n = 45 ∨ n = 46 →
      ∃ t, exec cmd s = .next t ∧ t.bystander = r.bystander ∧
        (s.airQuiet = true → t.budget.result = allocate r.passInput)) ∧
    (n = 44 →
      let capped : State := { r with budget := { s.budget with cEff := r.effectiveCeiling } }
      ∃ t, exec cmd s = .next t ∧ t.budget.cEff = r.effectiveCeiling ∧ t.bystander = capped.bystander ∧
        (s.airQuiet = true → t.budget.result = allocate capped.passInput)) ∧
    (∀ x, n = overrideNumber x →
      (s.override x = decide (v = 1) → exec cmd s = .next r) ∧
      (s.override x = false → v = 1 →
        ((s.seat x).occupancy = .occupied → exec cmd s = .next r) ∧
        ∃ t, exec cmd s = .next t ∧ (t.seat x).occupancy = .occupied) ∧
      (s.override x = true → v = 0 →
        ((s.seat x).occupancy ≠ .occupied ∨ (s.seat x).debounced = true → exec cmd s = .next r) ∧
        ((s.seat x).occupancy = .occupied → (s.seat x).debounced = false →
          ∃ t, exec cmd s = .next t ∧ t.bystander =
            (r.modSeat x fun q => { q with occupancy := .vacating, timer := .vacancy s.vacancyDelay }).bystander))) ∧
    (n = 38 → ∃ t, exec cmd s = .next t ∧
      (v = 0 → ∀ z, (t.zone z).minutes = 0 ∧ (t.zone z).minuteMs = 0 ∧ t.level z = s.level z) ∧
      (v ≠ 0 → ∀ z,
        if ((s.level z).value = 4 ∨ (s.level z).value = 5) ∧ v ≤ (s.zone z).minutes then
          t.level z = ⟨(s.level z).value - 1, .device⟩ ∧ (t.zone z).minutes = 0
        else t.level z = s.level z ∧ (t.zone z).minutes = (s.zone z).minutes))

/-- READ PARAMETER (R182): DENIED, BADFIELD, or the value in force and the default, each in two bytes; no state changes but the
response. -/
def Obligations.ReadParameterAnswers : Prop :=
  ∀ (m : Master) (number : Byte) (s : State), s.onBus →
    (s.mayRead m .config = false → exec (.readParameter m number) s = .next (s.responding m [2])) ∧
    (s.mayRead m .config = true → 59 < number.toNat → exec (.readParameter m number) s = .next (s.responding m [6])) ∧
    (s.mayRead m .config = true → number.toNat ≤ 59 →
      exec (.readParameter m number) s = .next (s.responding m
        ([0] ++ twoBytes (s.param number.toNat) ++ twoBytes (paramDefault number.toNat))))

/-! ## Access and notices -/

/-- WRITE ACCESS: an unknown master, region or right is refused with BADFIELD, the GATEWAY's own right over ACCESS with READONLY;
otherwise the one right is written and nothing else changes. -/
def Obligations.WriteAccessStores : Prop :=
  ∀ (m : Master) (k r v : Byte) (s : State), s.onBus → s.mayWrite m .access = true →
    (2 < k.toNat ∨ 5 < r.toNat ∨ 3 < v.toNat →
      exec (.writeAccess m k r v) s = .next (s.recorded m 0x50 none .badField)) ∧
    (k = 0 → r = 5 → v.toNat ≤ 3 → exec (.writeAccess m k r v) s = .next (s.recorded m 0x50 none .readOnly)) ∧
    ∀ who region right, masterOfCode k.toNat = some who → regionOfCode r.toNat = some region →
      rightOfCode v.toNat = some right → ¬ (who = .gateway ∧ region = .access) →
      exec (.writeAccess m k r v) s = .next
        { s.recorded m 0x50 none .ok with access := s.access.set who ((s.access.get who).set region right) }

/-- READ ACCESS (R180): DENIED, or the eighteen rights, master by master and region by region; no state changes but the response. -/
def Obligations.ReadAccessAnswers : Prop :=
  ∀ (m : Master) (s : State), s.onBus →
    (s.mayRead m .access = false → exec (.readAccess m) s = .next (s.responding m [2])) ∧
    (s.mayRead m .access = true →
      exec (.readAccess m) s = .next (s.responding m (0 :: [Master.gateway, .leftPanel, .rightPanel].flatMap fun k =>
        [Region.leftSeat, .rightSeat, .store, .budget, .config, .access].map fun r => rightByte ((s.access.get k).get r))))

/-- SET NOTICE MASK replaces the sender's mask whole and re-judges its line, touching no pending set; a mask with a bit from 13 up
is refused with BADFIELD. -/
def Obligations.SetNoticeMaskReplaces : Prop :=
  ∀ (m : Master) (mask : Half) (s : State), s.onBus →
    (mask.toNat < 8192 →
      exec (.setNoticeMask m mask) s = .next
        { s.recorded m 0x60 none .ok with
          notices := s.notices.set m
            { pending := (s.notices.get m).pending, mask := mask
              line := (s.notices.get m).pending.any fun n => !mask.getLsbD n.kind.bit } }) ∧
    (8192 ≤ mask.toNat → exec (.setNoticeMask m mask) s = .next (s.recorded m 0x60 none .badField))

/-- TAKE NOTICE answers and removes the pair of the highest priority among the unmasked ones, LEFT before RIGHT, and re-judges the
line; with none unmasked it answers NONE and changes nothing. -/
def Obligations.TakeNoticeTakes : Prop :=
  ∀ (m : Master) (s : State), s.onBus → s.noticesSound →
    let box := s.notices.get m
    ((∀ n ∈ box.pending, box.mask.getLsbD n.kind.bit = true) →
      exec (.takeNotice m) s = .next (s.responding m [0, 0])) ∧
    ∀ n ∈ box.pending, box.mask.getLsbD n.kind.bit = false →
      (∀ p ∈ box.pending, box.mask.getLsbD p.kind.bit = false → n.rank ≤ p.rank) →
      let left := box.pending.filter fun p => decide (p ≠ n)
      let after : NoticeBox :=
        { pending := left, mask := box.mask, line := left.any fun p => !box.mask.getLsbD p.kind.bit }
      exec (.takeNotice m) s =
        .next (({ s with notices := s.notices.set m after } : State).responding m (0 :: noticeBytes n))

/-! ## Occupancy events -/

/-- A changed input restarts the 2 s timer and an unchanged one does nothing; at the timer's end, and not before, the debounced
occupancy takes the input's level: alone where it had it already or the override is ON, an OCCUPIED seat turning VACATING, any other
seat turning OCCUPIED and telling its readers where its loads were off. There a zone of a level above 0 runs in closed loop on its
latest reading or in DEGRADED (R13, R43), entering which raises HEAT FAULT with cause SENSOR; that of several zones the one pair names
the highest-numbered is the model's choice (notes/assumptions/39.md). A pass follows each change of the state (R76). -/
def Obligations.OccupancyFollowsItsInput : Prop :=
  (∀ (x : Seat) (b : Bool) (s : State), s.awake →
    exec (.occupancyInputChange x b) s = .next
      (if (s.seat x).rawLevel = b then s else s.modSeat x fun r => { r with rawLevel := b, debounceTimer := some 2000 })) ∧
  ∀ (x : Seat) (s : State), s.awake →
    let r := s.modSeat x fun r => { r with debounceTimer := none, debounced := r.rawLevel }
    let level := (s.seat x).rawLevel
    let timed := (s.seat x).debounceTimer = some 0
    let effective := timed ∧ level ≠ (s.seat x).debounced ∧ s.override x = false
    (¬ timed → exec (.debounceExpiry x) s = .next s) ∧
    (timed → (level = (s.seat x).debounced ∨ s.override x = true) → exec (.debounceExpiry x) s = .next r) ∧
    (effective → level = false → (s.seat x).occupancy ≠ .occupied → exec (.debounceExpiry x) s = .next r) ∧
    (effective → level = true → (s.seat x).occupancy = .occupied → exec (.debounceExpiry x) s = .next r) ∧
    (effective → level = false → (s.seat x).occupancy = .occupied →
      ∃ t, exec (.debounceExpiry x) s = .next t ∧
        t.bystander =
          (r.modSeat x fun q => { q with occupancy := .vacating, timer := .vacancy s.vacancyDelay }).bystander ∧
        (s.airQuiet = true → t.budget.result = allocate t.passInput)) ∧
    (effective → level = true → (s.seat x).occupancy = .vacating →
      ∃ t, exec (.debounceExpiry x) s = .next t ∧ (s.airQuiet = true → t.budget.result = allocate t.passInput) ∧
        t.bystander = (r.modSeat x fun q => { q with occupancy := .occupied, timer := .stopped }).bystander) ∧
    (effective → level = true → (s.seat x).occupancy = .standby ∨ (s.seat x).occupancy = .empty →
      ∃ t, exec (.debounceExpiry x) s = .next t ∧ (t.seat x).occupancy = .occupied ∧ (t.seat x).timer = .stopped ∧
        (t.seat x).debounced = true ∧ s.told t .occupancy x (.occupancy .occupied) none ∧
        (∀ z, z.seat = x → (s.zone z).latch = false → (s.level z).value = 0 → (t.zone z).state = .off) ∧
        (∀ z, z.seat = x → (s.zone z).latch = true → (t.zone z).state = .fault) ∧
        (∀ z, z.seat = x → (s.zone z).latch = false → (s.level z).value ≠ 0 →
          ((s.zone z).state = .degraded ∨ (s.zone z).temp = none →
            (t.zone z).state = .degraded ∧ (t.zone z).request = s.openLoop (s.level z).value) ∧
          ∀ m, (s.zone z).temp = some m → (s.zone z).state ≠ .degraded →
            ((t.zone z).request, (t.zone z).state) =
              controlLaw (s.targetTemp (s.level z).value) (s.baseDuty (s.level z).value) s.gain s.limitDuty (s.surfaceLimit z) m) ∧
        (let enters (z : ZoneId) : Prop := z.seat = x ∧ (s.zone z).latch = false ∧ (s.level z).value ≠ 0 ∧
          (s.zone z).state ≠ .degraded ∧ (s.zone z).temp = none
        ∀ z, enters z → (∀ y, enters y → zoneNumber y ≤ zoneNumber z) →
          s.told t .heatFault x (.heatFault z .sensor) none) ∧
        (s.airQuiet = true → (s.seat x).occupancy = .standby → t.budget.result = allocate t.passInput) ∧
        (∀ f, f.seat = x → (t.fan f).demand = if (s.fan f).state = .run then (s.fanLevel f).value else 0) ∧
        (∀ z, t.level z = s.level z) ∧ (∀ f, t.fanLevel f = s.fanLevel f) ∧ t.params = s.params)

/-- The vacancy delay's end takes a VACATING seat to STANDBY: the clear time runs, zones and fans are off, a RUNNING or PAUSED
cursor is in ENDING with cause STANDBY, levels keep their values, OCCUPANCY is raised and a pass runs. Otherwise, the delay not run
out among it, nothing changes. -/
def Obligations.VacancyDelayExpiryEntersStandby : Prop :=
  ∀ (x : Seat) (s : State), s.awake →
    ((s.seat x).occupancy ≠ .vacating ∨ (s.seat x).timer ≠ .vacancy 0 → exec (.vacancyDelayExpiry x) s = .next s) ∧
    ((s.seat x).occupancy = .vacating → (s.seat x).timer = .vacancy 0 →
      ∃ t, exec (.vacancyDelayExpiry x) s = .next t ∧
        (t.seat x).occupancy = .standby ∧ (t.seat x).timer = .clear s.clearTime ∧
        (∀ z, z.seat = x → (t.zone z).state = .standby ∧ (t.zone z).request = 0 ∧ (t.zone z).grant = 0 ∧
          (t.zone z).gate = false ∧ (t.zone z).window = 0 ∧ (t.zone z).latch = (s.zone z).latch ∧
          (t.zone z).minutes = (s.zone z).minutes) ∧
        (∀ f, f.seat = x → (t.fan f).demand = 0 ∧ (t.fan f).granted = 0 ∧ (t.fan f).state = (s.fan f).state) ∧
        ((s.cursor x).state = .running ∨ (s.cursor x).state = .paused →
          (t.cursor x).state = .ending ∧ (t.cursor x).cause = .standby) ∧
        (s.airQuiet = true → (s.cursor x).state = .idle ∨ (s.cursor x).state = .fault → t.cursor x = s.cursor x) ∧
        (∀ z, t.level z = s.level z) ∧ (∀ f, t.fanLevel f = s.fanLevel f) ∧ t.params = s.params ∧
        (∀ z, z.seat ≠ x → (t.zone z).ungranted = (s.zone z).ungranted) ∧
        (∀ f, f.seat ≠ x → (t.fan f).ungranted = (s.fan f).ungranted) ∧
        (s.airQuiet = true → t.budget.result = allocate t.passInput) ∧
        s.told t .occupancy x (.occupancy .standby) none)

/-- The clear time's end takes a STANDBY seat to EMPTY: levels and setpoints 0 with origin DEVICE, step-down counts 0, every
holding cell to be vented, latches, fault marks and the cursor's state kept, OCCUPANCY raised, and a pass. Otherwise, the clear time not
run out among it, nothing changes. -/
def Obligations.ClearTimeExpiryEntersEmpty : Prop :=
  ∀ (x : Seat) (s : State), s.awake →
    ((s.seat x).occupancy ≠ .standby ∨ (s.seat x).timer ≠ .clear 0 → exec (.clearTimeExpiry x) s = .next s) ∧
    ((s.seat x).occupancy = .standby → (s.seat x).timer = .clear 0 →
      ∃ t, exec (.clearTimeExpiry x) s = .next t ∧
        (t.seat x).occupancy = .empty ∧ (t.seat x).timer = .stopped ∧
        (∀ z, z.seat = x → t.level z = ⟨0, .device⟩ ∧ (t.zone z).minutes = 0 ∧ (t.zone z).minuteMs = 0 ∧
          (t.zone z).state = .standby ∧ (t.zone z).latch = (s.zone z).latch) ∧
        (∀ f, f.seat = x → t.fanLevel f = ⟨0, .device⟩ ∧
          (t.fan f).state = if (s.fan f).state = .fault then .fault else .off) ∧
        (∀ c, t.setpoint x c = ⟨0, .device⟩ ∧ t.need x c = .vent ∧ t.faultMark x c = (s.faultMark x c)) ∧
        (t.regulator x).service = .free ∧ (t.cursor x).origin = .device ∧ t.params = s.params ∧
        (∀ z, z.seat ≠ x → t.level z = s.level z ∧ (t.zone z).ungranted = (s.zone z).ungranted) ∧
        (s.airQuiet = true → (⟨.requester (.support x), 0xF000, s.ventWindow⟩ : VentOp) ∈ t.pneu.vents ∧
          (t.cursor x).state = (s.cursor x).state ∧ (t.seat x).underfill = (s.seat x).underfill ∧
          t.budget.result = allocate t.passInput) ∧
        s.told t .occupancy x (.occupancy .empty) none)

/-! ## Heating events -/

/-- A scan stores every reading that is valid and INVALID for the others, restarts the scan timer, takes the mean of ITOT and
compares it with the peak; a zone in closed loop follows the control law or enters DEGRADED, raising HEAT FAULT with cause SENSOR
(R29), one in DEGRADED counts its valid readings and leaves at the third; the scan's pass runs. That the command carries the sum and
the number of the readings, and that an interval with none has some mean, is the model's choice (notes/assumptions/11.md), as is that
of several zones the one pair names the highest-numbered (39.md). Run and peak are those of R65, but where a CLEAR DIAGNOSTICS of the
moment has kept a derate step that was due (R67; 47.md). -/
def Obligations.ScanCompletionActs : Prop :=
  ∀ (v : PerSeat (Five Int)) (sum count : Nat) (s : State), s.awake →
    let readings := s.supply.itotCount + count
    ∃ mean, mean ≤ 1000 ∧ (0 < readings → mean = min 1000 ((s.supply.itotSum + sum) / readings)) ∧
    let run := if s.budget.stepPeak = none then s.budget.overdrawRun else 2
    let peak := s.budget.stepPeak.getD s.budget.peak
    let exceeds := peak + s.overdrawMargin < mean
    let d := if exceeds ∧ 2 ≤ run then min 3 (s.budget.derate + 1) else s.budget.derate
    ∃ t, exec (.scanCompletion v sum count) s = .next t ∧
      t.scanned = true ∧ t.scanTimer = s.scanPeriod ∧ t.supply = { s.supply with measured := mean, itotSum := 0, itotCount := 0 } ∧
      t.budget.derate = d ∧
      t.budget.overdrawRun = (if exceeds ∧ run < 2 then run + 1 else 0) ∧ t.budget.stepPeak = none ∧
      (exceeds → 2 ≤ run → t.budget.cEff = min s.budget.ceiling s.bandCap - 20 * d ∧
        t.toldGateway .overdraw (.overdraw d mean peak)) ∧
      (s.airQuiet = true → t.budget.peak = t.budget.result.total ∧ t.budget.result = allocate t.passInput) ∧
      (let enters (z : ZoneId) : Prop := s.active z.seat = true ∧ (s.zone z).latch = false ∧ (s.level z).value ≠ 0 ∧
        (s.zone z).state ≠ .degraded ∧ ¬ (-400 ≤ (v.get z.seat).get z.part ∧ (v.get z.seat).get z.part ≤ 1500)
      ∀ z, enters z → (∀ y, enters y → y.seat = z.seat → zoneNumber y ≤ zoneNumber z) →
        s.told t .heatFault z.seat (.heatFault z .sensor) none) ∧
      ∀ z : ZoneId,
        let m := (v.get z.seat).get z.part
        let valid := -400 ≤ m ∧ m ≤ 1500
        let heats := s.active z.seat = true ∧ (s.zone z).latch = false ∧ (s.level z).value ≠ 0
        let level := (s.level z).value
        let law := controlLaw (s.targetTemp level) (s.baseDuty level) s.gain s.limitDuty (s.surfaceLimit z) m
        (valid → (t.zone z).temp = some m) ∧ (¬ valid → (t.zone z).temp = none) ∧
        (heats → (s.zone z).state ≠ .degraded → valid → ((t.zone z).request, (t.zone z).state) = law) ∧
        (heats → (s.zone z).state ≠ .degraded → ¬ valid →
          (t.zone z).state = .degraded ∧ (t.zone z).request = s.openLoop level ∧ (t.zone z).streak = 0) ∧
        (heats → (s.zone z).state = .degraded → ¬ valid →
          (t.zone z).state = .degraded ∧ (t.zone z).request = s.openLoop level ∧ (t.zone z).streak = 0) ∧
        (heats → (s.zone z).state = .degraded → valid → (s.zone z).streak < 2 →
          (t.zone z).state = .degraded ∧ (t.zone z).request = s.openLoop level ∧
            (t.zone z).streak = (s.zone z).streak + 1) ∧
        (heats → (s.zone z).state = .degraded → valid → 2 ≤ (s.zone z).streak →
          ((t.zone z).request, (t.zone z).state) = law ∧ (t.zone z).streak = 0)

/-- A zone frame opens a window as long as the grant, the gate on where that is above 0. At a window's end it is judged: a low one
counts and the third in a row latches FAULT, one already judged changes nothing; the gate goes off, but at the end of a window of
100, which runs into the next frame and may be judged after that frame's start (R36); so may one that a grant lowered at that moment has
cut after its 100 slots (R31, R37). A current above 150 % of the rating while the
gate is on latches FAULT; without the gate, or below, nothing changes. Each latch raises HEAT FAULT, runs a pass and leaves every other
zone's state and request as they were. When a window counts as judged is the model's choice (notes/assumptions/12.md, 34.md). -/
def Obligations.WindowsAndCurrentsAreJudged : Prop :=
  (∀ (z : ZoneId) (s : State), s.awake →
    ∃ t, exec (.zoneFrameStart z) s = .next t ∧
      t.zone z = { s.zone z with
        window := (s.zone z).grant, gate := decide (0 < (s.zone z).grant), onSlots := 0
        unjudged := decide (0 < (s.zone z).grant)
        carried := decide ((s.zone z).unjudged = true ∧ ((s.zone z).window = 100 ∨ (s.zone z).onSlots = 100)) } ∧
      (∀ y, y ≠ z → t.zone y = s.zone y) ∧ t.frameSlot = 10 * zoneNumber z ∧ t.frameMs = 0 ∧
      { t with zones := s.zones, frameSlot := s.frameSlot, frameMs := s.frameMs } = s) ∧
  ∀ (z : ZoneId) (current : Nat) (s : State), s.awake →
    let c := s.zone z
    let due := c.carried = true ∨ c.unjudged = true
    let low := 10 * current < 3 * s.rated z
    let ended :=
      if c.carried = true then { c with carried := false }
      else { c with gate := decide (c.gate = true ∧ c.window = 100), unjudged := false }
    let faulted := { c with
      state := .fault, latch := true, faults := min 255 (c.faults + 1), request := 0, grant := 0, openLoad := 0
      streak := 0, window := 0, gate := false, onSlots := 0, unjudged := false, carried := false }
    let latches (e : Instr) (cause : HeatCause) : Prop :=
      ∃ t, exec e s = .next t ∧ t.zone z = faulted ∧ s.told t .heatFault z.seat (.heatFault z cause) none ∧
        (s.airQuiet = true → t.budget.result = allocate t.passInput) ∧
        t.bystander = (s.setZone z faulted).bystander
    (¬ due → exec (.onWindowEnd z current) s = .next s) ∧
    (due → ¬ low → exec (.onWindowEnd z current) s = .next (s.setZone z { ended with openLoad := 0 })) ∧
    (due → low → c.openLoad < 2 →
      exec (.onWindowEnd z current) s = .next (s.setZone z { ended with openLoad := c.openLoad + 1 })) ∧
    (due → low → 2 ≤ c.openLoad → latches (.onWindowEnd z current) .openLoad) ∧
    (c.gate = false ∨ 10 * current ≤ 15 * s.rated z → exec (.overcurrent z current) s = .next s) ∧
    (c.gate = true → 15 * s.rated z < 10 * current → latches (.overcurrent z current) .overcurrent)

/-- A zone of level 4 or 5, its minutes at the step-down time, steps down by one with origin DEVICE, its count back at 0, raises
STEP-DOWN and runs a pass; at any other zone, one whose count a SET ZONE has restarted among them (R7), nothing changes. That it steps
down in FAULT and STANDBY too, into which only an event of the same moment can have put it, is the model's reading of R42, by which no
zone at level 4 or 5 keeps its minutes at the step-down time (notes/assumptions/49.md). -/
def Obligations.StepDownLowersTheLevel : Prop :=
  ∀ (z : ZoneId) (s : State), s.awake →
    let due := ((s.level z).value = 4 ∨ (s.level z).value = 5) ∧ 0 < s.stepDownTime ∧ s.stepDownTime ≤ (s.zone z).minutes
    (¬ due → exec (.stepDown z) s = .next s) ∧
    (due → ∃ t, exec (.stepDown z) s = .next t ∧ t.level z = ⟨(s.level z).value - 1, .device⟩ ∧
      (t.zone z).minutes = 0 ∧ (t.zone z).minuteMs = 0 ∧ (∀ y, y ≠ z → t.level y = s.level y) ∧
      (∀ y, y ≠ z → (t.zone y).request = (s.zone y).request ∧ (t.zone y).state = (s.zone y).state) ∧
      t.params = s.params ∧ t.results = s.results ∧
      (s.airQuiet = true → t.budget.result = allocate t.passInput) ∧
      s.told t .stepDown z.seat (.stepDown z ((s.level z).value - 1)) none)

/-! ## Fan events -/

/-- A pulse restarts the tach watch of a driven fan and is ignored otherwise; a clean run of 60 s clears the retries; a stall, the
tach watch run out, stops the fan for a 10 s retry wait, and for good after three retries with FAN FAULT; the retry timer's end brings
it to RUN. A pass follows (R76). A timer that has not run out brings nothing. A SET FAN to level 0 that falls together with the retry
timer's end and is taken after it leaves the fan OFF with the count raised, its output never driven (R51): that the output comes on as
time passes is the model's reading (notes/assumptions/40.md). That CLEAN_RUN_COMPLETE changes nothing while the output is off, the time
at 60 s and the retries uncleared, is the model's choice (46.md): R53 settles only its tie with a stall. -/
def Obligations.FanEventsAct : Prop :=
  (∀ (f : FanId) (s : State), s.awake → exec (.tachPulse f) s = .next
    (if 1 ≤ (s.fan f).granted ∧ (s.fan f).restarted = false then s.setFan f { s.fan f with tachWatch := some 2000 } else s)) ∧
  (∀ (f : FanId) (s : State), s.awake → exec (.cleanRunComplete f) s = .next
    (if (s.fan f).state = .run ∧ 1 ≤ (s.fan f).granted ∧ (s.fan f).restarted = false ∧ 60000 ≤ (s.fan f).cleanRun then
      s.setFan f { s.fan f with retries := 0, cleanRun := 60000 } else s)) ∧
  (∀ (f : FanId) (s : State), s.awake →
    let stalls := (s.fan f).state = .run ∧ 1 ≤ (s.fan f).granted ∧ (s.fan f).restarted = false ∧ (s.fan f).tachWatch = some 0
    let stopped (st : FanState) (timer : Option Nat) : FanChannel :=
      { s.fan f with state := st, demand := 0, granted := 0, tachWatch := none, retryTimer := timer, cleanRun := 0 }
    let passed (t : State) : Prop := s.airQuiet = true → t.budget.result = allocate t.passInput
    (¬ stalls → exec (.fanStall f) s = .next s) ∧
    (stalls → (s.fan f).retries < 3 →
      ∃ t, exec (.fanStall f) s = .next t ∧ t.fan f = stopped .retryWait (some 10000) ∧ passed t ∧
        t.bystander = (s.setFan f (stopped .retryWait (some 10000))).bystander) ∧
    (stalls → 3 ≤ (s.fan f).retries →
      ∃ t, exec (.fanStall f) s = .next t ∧ t.fan f = stopped .fault (s.fan f).retryTimer ∧ passed t ∧
        s.told t .fanFault f.seat (.fanFault f) none ∧
        t.bystander = (s.setFan f (stopped .fault (s.fan f).retryTimer)).bystander)) ∧
  ∀ (f : FanId) (s : State), s.awake →
    ((s.fan f).state ≠ .retryWait ∨ (s.fan f).retryTimer ≠ some 0 → exec (.retryTimerExpiry f) s = .next s) ∧
    ((s.fan f).state = .retryWait → (s.fan f).retryTimer = some 0 →
      ∃ t, exec (.retryTimerExpiry f) s = .next t ∧ (t.fan f).state = .run ∧ (t.fan f).retryTimer = none ∧
        (t.fan f).retries = min 3 ((s.fan f).retries + 1) ∧ (t.fan f).cleanRun = 0 ∧ (t.fan f).driven = false ∧
        (t.fan f).demand = (if s.active f.seat = true then (s.fanLevel f).value else 0) ∧
        ((t.fan f).demand ≠ (s.fan f).demand → s.airQuiet = true → t.budget.result = allocate t.passInput) ∧
        (∀ g, g ≠ f → (t.fan g).state = (s.fan g).state ∧ (t.fan g).demand = (s.fan g).demand) ∧
        (∀ z, (t.zone z).ungranted = (s.zone z).ungranted) ∧ t.params = s.params ∧
        ∀ m, s.onBus → s.mayWrite m f.seat.region = true → t.reports = [] →
          ∃ u, exec (.setFan m (byteOf (fanNumber f)) 0) t = .next u ∧ (u.fan f).state = .off ∧ (u.fan f).granted = 0 ∧
            (u.fan f).tachWatch = none ∧ (u.fan f).retries = min 3 ((s.fan f).retries + 1))

/-! ## Supply events -/

/-- The end of a refresh timer that has run out drops the ceiling to the default one, stops the timer, raises LEASE, recomputes C_eff
and runs a pass; with the timer stopped, or restarted by a SET CEILING taken first (R60), nothing changes. A supply sample is stored;
that its 10 ms timer starts again is the model's choice (notes/assumptions/33.md). One in the present band changes nothing else; a band
change stores the band by the hysteresis of the table, raises SUPPLY, recomputes C_eff and runs a pass, keeping the ceiling, the derate
steps and the run. -/
def Obligations.CeilingAndSupplyEventsAct : Prop :=
  (∀ s : State, s.awake →
    (s.budget.refresh ≠ some 0 → exec .ceilingRefreshExpiry s = .next s) ∧
    (s.budget.refresh = some 0 → ∃ t, exec .ceilingRefreshExpiry s = .next t ∧
      t.toldGateway .lease (.lease s.defaultCeiling) ∧
      (s.airQuiet = true → t.budget.result = allocate t.passInput) ∧
      t.bystander = ({ s with budget := { s.budget with
        ceiling := s.defaultCeiling, refresh := none
        cEff := min s.defaultCeiling s.bandCap - 20 * s.budget.derate } } : State).bystander)) ∧
  ∀ (v : Nat) (s : State), s.awake → 60 ≤ v →
    let up := if s.supply.band = .stop then 95 else 90
    let full := if s.supply.band = .normal then 110 else 115
    let band : Band := if v < up then .stop else if v < full then .shed else .normal
    let cap := if band = .normal then 600 else if band = .shed then s.shedCeiling else 0
    let r := { s with supply := { s.supply with band := band, reading := min 255 v }, supplyTimer := 10 }
    (band = s.supply.band → exec (.supplySample v) s = .next r) ∧
    (band ≠ s.supply.band → ∃ t, exec (.supplySample v) s = .next t ∧ t.toldGateway .supply (.supply band s.supply.band) ∧
      (s.airQuiet = true → t.budget.result = allocate t.passInput) ∧
      t.bystander = ({ r with budget := { s.budget with
        cEff := min s.budget.ceiling cap - 20 * s.budget.derate } } : State).bystander)

/-! ## Air events -/

/-- A sample pair is stored within 0 to 1000 and judged only for a fill in FILLING: below the target it changes nothing else; at the
target a massage fill is DONE and its cursor dwells; at 500 or more the fill ends and the cursor faults. Either way, whatever waits in
a queue that keeps its laws (StepKeepsQueueLaws), the requester's grant is released, and at 500, in such a queue, a RELIEF vent of the
seat runs a full window: over the fill's cells, and with AIR FAULT naming the step, where no entry of the same seat waits, whose own start check could
end in OVERPRESSURE in turn. With no entry waiting no grant follows. That a sample restarts its 50 ms timer is the model's choice
(notes/assumptions/33.md). The fills of the regulators, and those that a SET SUPPORT of the moment has ended, are in SupportFillsEnd. -/
def Obligations.ManifoldSampleJudges : Prop :=
  ∀ (l r : Int) (s : State), s.awake → (∀ x, (s.regulator x).cuts = Four.all none) →
    let kept := { s with pneu := { s.pneu with manifold := ⟨min 1000 l.toNat, min 1000 r.toNat⟩ }, manifoldTimer := 50 }
    let released (x : Seat) (t : State) : Prop :=
      (s.queueLaws → ∀ g, t.pneu.holder = some g → g.entry.requester ≠ .massage x) ∧
      (s.pneu.queue = [] → t.pneu.holder = none ∧ t.pneu.compressor = false)
    ((∀ h, s.pneu.holder = some h → h.p0 = none) → exec (.manifoldSample l r) s = .next kept) ∧
    (∀ h, s.pneu.holder = some h → kept.manifoldOf h.seat < 500 → kept.manifoldOf h.seat < h.entry.target →
      exec (.manifoldSample l r) s = .next kept) ∧
    (∀ h x, s.pneu.holder = some h → h.p0 ≠ none → h.entry.requester = .massage x → kept.manifoldOf x < 500 →
      h.entry.target ≤ kept.manifoldOf x → (s.cursor x).state = .running →
      (s.cursor x).phase = .filling → (s.cursor x).effDwell ≠ 0 →
      ∃ t, exec (.manifoldSample l r) s = .next t ∧
        t.cursor x = { s.cursor x with phase := .dwell, phaseMs := 100 * (s.cursor x).effDwell, hops := 0 } ∧
        t.bystander = kept.bystander ∧ released x t) ∧
    (∀ h x, s.pneu.holder = some h → h.p0 ≠ none → h.entry.requester = .massage x → h.entry.cells ≠ 0 →
      500 ≤ kept.manifoldOf x → (s.cursor x).state = .running → (s.cursor x).phase = .filling →
      ∃ t, exec (.manifoldSample l r) s = .next t ∧
        (t.cursor x).state = .fault ∧ (t.cursor x).fault = .overpressure ∧ t.bystander = kept.bystander ∧ released x t ∧
        (s.queueLaws → ∃ op ∈ t.pneu.vents, op.owner = .relief x ∧ op.left = s.ventWindow) ∧
        ((∀ e ∈ s.pneu.queue, e.requester.seat ≠ x) →
          (⟨.relief x, h.entry.cells, s.ventWindow⟩ : VentOp) ∈ t.pneu.vents ∧
          s.told t .airFault x (.massageFault .overpressure ((s.cursor x).step.getD 0)) none))

/-- An arriving selector comes to rest; with a grant waiting at its seat FILLING begins on the manifold reading (R102): the timers and
the compressor start where the reading is below the target and 500, the fill is DONE at once from the target on, and at 500 it ends in
OVERPRESSURE with a RELIEF vent. A movement that has not run out does not arrive. The rise window's end passes a fill that rose and
faults the cursor of one that leaks; the maximum fill time's end counts an underfill; neither before its time. Whatever waits in a
queue that keeps its laws the requester's grant is released at each such end, and with no entry waiting no grant follows; the RELIEF
vent over the fill's cells and AIR FAULT stand where no entry of the same seat waits. That no FILLING begins over a cell in VENT is
the model's choice (notes/assumptions/45.md). -/
def Obligations.FillTimersAndArrival : Prop :=
  let released (x : Seat) (s t : State) : Prop :=
    (s.queueLaws → ∀ g, t.pneu.holder = some g → g.entry.requester ≠ .massage x) ∧
    (s.pneu.queue = [] → t.pneu.holder = none ∧ t.pneu.compressor = false)
  (∀ s : State, s.awake →
    (∀ p, s.pneu.selector = .atRest p → exec .selectorArrival s = .next s) ∧
    (∀ p left, s.pneu.selector = .moving p left → 0 < left → exec .selectorArrival s = .next s) ∧
    (∀ p, s.pneu.selector = .moving p 0 →
      (∀ h, s.pneu.holder = some h →
        h.p0 ≠ none ∨ seatPos h.seat ≠ p ∨ ventedCells s.pneu.vents h.seat &&& h.entry.cells ≠ 0) →
      exec .selectorArrival s = .next { s with pneu := { s.pneu with selector := .atRest p } }) ∧
    ∀ p h, s.pneu.selector = .moving p 0 → s.pneu.holder = some h → h.p0 = none → seatPos h.seat = p →
      ventedCells s.pneu.vents h.seat &&& h.entry.cells = 0 →
      let m := s.manifoldOf h.seat
      (m < 500 → m < h.entry.target →
        exec .selectorArrival s = .next { s with pneu := { s.pneu with
          selector := .atRest p, compressor := true
          holder := some { h with
            p0 := some m
            riseTimer := if s.riseWindow < s.maximumFill then some s.riseWindow else none
            fillTimer := some s.maximumFill, elapsed := 0 } } }) ∧
      (∀ x, h.entry.requester = .massage x → (s.cursor x).state = .running → (s.cursor x).phase = .filling →
        (m < 500 → h.entry.target ≤ m → (s.cursor x).effDwell ≠ 0 →
          ∃ t, exec .selectorArrival s = .next t ∧
            t.cursor x = { s.cursor x with phase := .dwell, phaseMs := 100 * (s.cursor x).effDwell } ∧
            t.bystander = s.bystander ∧ released x s t) ∧
        (500 ≤ m → h.entry.cells ≠ 0 →
          ∃ t, exec .selectorArrival s = .next t ∧ (t.cursor x).state = .fault ∧ (t.cursor x).fault = .overpressure ∧
            t.bystander = s.bystander ∧ released x s t ∧
            ((∀ e ∈ s.pneu.queue, e.requester.seat ≠ x) →
              (⟨.relief x, h.entry.cells, s.ventWindow⟩ : VentOp) ∈ t.pneu.vents)))) ∧
  (∀ s : State, s.awake → (∀ x, (s.regulator x).cuts = Four.all none) →
    ((∀ h, s.pneu.holder = some h → h.p0 = none ∨ h.riseTimer ≠ some 0) → exec .riseWindowExpiry s = .next s) ∧
    (∀ h p0, s.pneu.holder = some h → h.p0 = some p0 → h.riseTimer = some 0 →
      (h.entry.target < p0 + 20 ∨ p0 + 20 ≤ s.manifoldOf h.seat) →
      exec .riseWindowExpiry s = .next { s with pneu := { s.pneu with holder := some { h with riseTimer := none } } }) ∧
    (∀ h p0, s.pneu.holder = some h → h.p0 = some p0 → h.riseTimer = some 0 → ∀ x, h.entry.requester = .massage x →
      p0 + 20 ≤ h.entry.target → s.manifoldOf x < p0 + 20 → (s.cursor x).state = .running →
      (s.cursor x).phase = .filling →
      ∃ t, exec .riseWindowExpiry s = .next t ∧
        (t.cursor x).state = .fault ∧ (t.cursor x).fault = .leak ∧ t.bystander = s.bystander ∧ released x s t ∧
        ((∀ e ∈ s.pneu.queue, e.requester.seat ≠ x) →
          s.told t .airFault x (.massageFault .leak ((s.cursor x).step.getD 0)) none))) ∧
  ∀ s : State, s.awake →
    ((∀ h, s.pneu.holder = some h → h.p0 = none ∨ h.fillTimer ≠ some 0) → exec .maximumFillExpiry s = .next s) ∧
    (∀ h x, s.pneu.holder = some h → h.p0 ≠ none → h.fillTimer = some 0 → h.entry.requester = .massage x →
      (s.cursor x).state = .running → (s.cursor x).phase = .filling → (s.cursor x).effDwell ≠ 0 →
      ∃ t, exec .maximumFillExpiry s = .next t ∧ (t.seat x).underfill = min 255 ((s.seat x).underfill + 1) ∧
        t.cursor x = { s.cursor x with phase := .dwell, phaseMs := 100 * (s.cursor x).effDwell, hops := 0 } ∧
        t.bystander = s.bystander ∧ released x s t)

/-- How the fill of a holding cell ends (R102, R163, R164), at its start check, by a sample at its target or at 500, by the rise
window's or the maximum fill time's end, whatever waits in the queue: DONE and UNDERFILL leave the cell HELD, its setpoint and the
underfill counts as they were; LEAK and OVERPRESSURE set its setpoint to 0 with origin DEVICE, mark it faulted and vent it. With an
empty queue and no other cell to be filled the regulator is then free, no grant is held, AIR FAULT names the cell, and OVERPRESSURE
opens a RELIEF vent. The LEAK or OVERPRESSURE of a fill that a SET SUPPORT of the moment has ended does the same to the cell, but for
the RELIEF vent, also where the regulator fills another cell by then (R7; notes/assumptions/38.md, and 44.md for that other fill). The
sample's timer is the model's choice (33.md), and so is the order in which one sample faults several cells (50.md); a fill in progress is
judged here where no ended one is kept. -/
def Obligations.SupportFillsEnd : Prop :=
  (∀ (x : Seat) (c : HoldCell) (h : Holder) (s : State), s.awake → s.pneu.holder = some h →
    h.entry.requester = .support x → (s.regulator x).service = .filling c → h.entry.cells ≠ 0 → (s.regulator x).cuts = Four.all none →
    let alone := s.pneu.queue = [] ∧ ∀ k, k ≠ c → s.need x k ≠ .fill
    let rests (t : State) : Prop :=
      alone → (t.regulator x).service = .free ∧ t.pneu.holder = none ∧ t.pneu.compressor = false
    let held (t : State) : Prop :=
      t.need x c = .held ∧ t.setpoint x c = s.setpoint x c ∧ t.faultMark x c = s.faultMark x c ∧
      (∀ y, (t.seat y).underfill = (s.seat y).underfill) ∧ rests t
    let faulted (o : CellOutcome) (t : State) : Prop :=
      t.setpoint x c = ⟨0, .device⟩ ∧ t.faultMark x c = true ∧ t.need x c = .vent ∧
      (∃ op ∈ t.pneu.vents, op.owner = .requester (.support x) ∧ op.cells.getLsbD (cellNumber c) = true ∧
        op.left = s.ventWindow) ∧
      (alone → s.told t .airFault x (.supportFault c o) none) ∧ rests t
    let relieved (t : State) : Prop := alone → (⟨.relief x, h.entry.cells, s.ventWindow⟩ : VentOp) ∈ t.pneu.vents
    (∀ l r : Int, h.p0 ≠ none → (∀ y, (s.regulator y).cuts = Four.all none) →
      let kept := { s with pneu := { s.pneu with manifold := ⟨min 1000 l.toNat, min 1000 r.toNat⟩ }, manifoldTimer := 50 }
      (kept.manifoldOf x < 500 → h.entry.target ≤ kept.manifoldOf x →
        ∃ t, exec (.manifoldSample l r) s = .next t ∧ held t ∧ t.bystander = kept.bystander) ∧
      (500 ≤ kept.manifoldOf x →
        ∃ t, exec (.manifoldSample l r) s = .next t ∧ faulted .overpressure t ∧ relieved t ∧ t.bystander = kept.bystander)) ∧
    (h.p0 = none → s.pneu.selector = .moving (seatPos x) 0 → ventedCells s.pneu.vents x &&& h.entry.cells = 0 →
      (s.manifoldOf x < 500 → h.entry.target ≤ s.manifoldOf x →
        ∃ t, exec .selectorArrival s = .next t ∧ held t ∧ t.bystander = s.bystander) ∧
      (500 ≤ s.manifoldOf x →
        ∃ t, exec .selectorArrival s = .next t ∧ faulted .overpressure t ∧ relieved t ∧ t.bystander = s.bystander)) ∧
    (h.p0 ≠ none → h.fillTimer = some 0 → ∃ t, exec .maximumFillExpiry s = .next t ∧ held t ∧ t.bystander = s.bystander) ∧
    ∀ p0, h.p0 = some p0 → (∀ y, (s.regulator y).cuts = Four.all none) → h.riseTimer = some 0 → p0 + 20 ≤ h.entry.target →
      s.manifoldOf x < p0 + 20 →
      ∃ t, exec .riseWindowExpiry s = .next t ∧ faulted .leak t ∧ t.bystander = s.bystander) ∧
  ∀ (x : Seat) (c : HoldCell) (k : CutFill) (s : State), s.awake → (s.regulator x).cuts.get c = some k →
    let faulted (o : CellOutcome) (t : State) : Prop :=
      t.setpoint x c = ⟨0, .device⟩ ∧ t.faultMark x c = true ∧ t.need x c = .vent ∧ (t.regulator x).cuts.get c = none ∧
      (s.airQuiet = true → (∀ d, s.need x d ≠ .fill) → (∀ d, d ≠ c → (s.regulator x).cuts.get d = none) →
        s.told t .airFault x (.supportFault c o) none)
    (∀ l r : Int,
      (∀ h, s.pneu.holder = some h → h.entry.requester = .support x → h.p0 = none ∨ h.entry.cells &&& cellBit c = 0) →
      let kept := { s with pneu := { s.pneu with manifold := ⟨min 1000 l.toNat, min 1000 r.toNat⟩ }, manifoldTimer := 50 }
      500 ≤ kept.manifoldOf x →
      ∃ t, exec (.manifoldSample l r) s = .next t ∧ faulted .overpressure t ∧ t.bystander = kept.bystander) ∧
    ((∀ h, s.pneu.holder = some h → h.p0 = none ∨ h.riseTimer ≠ some 0) → k.riseDue = true → k.p0 + 20 ≤ k.target →
      s.manifoldOf x < k.p0 + 20 →
      ∃ t, exec .riseWindowExpiry s = .next t ∧ faulted .leak t ∧ t.bystander = s.bystander)

/-- The end of a vent that has run out closes its cells; one that has not, begun afresh at the moment among them, runs on (R148).
With an empty queue it does nothing else for RELIEF and RESET, and for a cursor that waits for no vent; a RUNNING cursor in VENT
dwells, or waits for its fill (R141); an ENDING one ends its program, IDLE with PROGRAM END, whatever waits in the queue; a
regulator's vented cells take the needs of their setpoints (R161), in an EMPTY seat, with the regulator in service or with nothing
to fill that is all, and otherwise the lowest cell to be filled is asked for. -/
def Obligations.VentEndCompletes : Prop :=
  ∀ (o : VentOwner) (s : State), s.awake →
    let closed := { s with pneu := { s.pneu with vents := s.pneu.vents.filter fun v => v.owner != o } }
    let runs := ∃ v ∈ s.pneu.vents, v.owner = o ∧ v.left = 0
    let idle (c : Cursor) : Cursor := { Cursor.powerOn with intensity := c.intensity, speed := c.speed, origin := c.origin }
    let asks (e : Entry) (t : State) : Prop := t.pneu = { closed.pneu with queue := [e] } ∧ t.bystander = s.bystander
    (¬ runs → exec (.ventEnd o) s = .next s) ∧
    (runs → (∀ q, o ≠ .requester q) → s.pneu.queue = [] → exec (.ventEnd o) s = .next closed) ∧
    (∀ x, runs → o = .requester (.massage x) →
      let c := s.cursor x
      (c.state ≠ .ending → ¬ (c.state = .running ∧ c.phase = .vent) → s.pneu.queue = [] →
        exec (.ventEnd o) s = .next closed) ∧
      (c.state = .ending → s.pneu.queue = [] →
        exec (.ventEnd o) s = .next (raiseSeat .programEnd x (.programEnd (c.program.getD 0) c.cause) none
          (closed.modCursor x idle))) ∧
      (c.state = .ending → s.queueLaws →
        ∃ t, exec (.ventEnd o) s = .next t ∧ t.cursor x = idle c ∧ t.bystander = s.bystander ∧
          s.told t .programEnd x (.programEnd (c.program.getD 0) c.cause) none) ∧
      ∀ f, c.state = .running → c.phase = .vent → c.copy = some f → s.pneu.queue = [] →
        (f.fill = 0 → c.effDwell ≠ 0 →
          exec (.ventEnd o) s =
            .next (closed.modCursor x fun c => { c with phase := .dwell, phaseMs := 100 * c.effDwell })) ∧
        (f.fill ≠ 0 → s.pneu.holder = none → s.budget.cEff ≤ s.overhead →
          ∃ t, exec (.ventEnd o) s = .next t ∧ t.cursor x = { c with phase := .fillWait, phaseMs := 0 } ∧
            asks ⟨.massage x, f.fill, min 400 c.effTarget, false⟩ t)) ∧
    ∀ x, runs → o = .requester (.support x) → s.pneu.queue = [] →
      let after (c : HoldCell) : Need :=
        if s.need x c = .vent then
          (if (s.setpoint x c).value ≠ 0 ∧ s.faultMark x c = false then .fill else .held)
        else s.need x c
      let settled := closed.modRegulator x fun g => { g with needs := ⟨after .l0, after .l1, after .s0, after .s1⟩ }
      ((s.seat x).occupancy = .empty ∨ (s.regulator x).service ≠ .free ∨ (∀ c, after c ≠ .fill) →
        exec (.ventEnd o) s = .next settled) ∧
      ∀ k, (s.seat x).occupancy ≠ .empty → (s.regulator x).service = .free → (∃ c, s.need x c = .vent) →
        after k = .fill → (∀ c, cellNumber c < cellNumber k → after c ≠ .fill) → s.pneu.holder = none →
        s.budget.cEff ≤ s.overhead →
        ∃ t, exec (.ventEnd o) s = .next t ∧ (t.regulator x).service = .waiting k ∧ (∀ c, t.need x c = after c) ∧
          asks ⟨.support x, cellBit k, min 400 (s.setpoint x k).value, false⟩ t

/-- The end of a RELIEF or RESET vent lets the arbiter choose. With no grant held and the pump permitted, the eligible entries,
those none of whose cells is still vented, are narrowed by rotation, class and parking, and the one nearest the head is granted
(R98): it leaves the queue, the rotation count and the last seat follow (R99), and where the selector rests at its seat, the
manifold below the target and 500, FILLING begins; from the target on the fill is DONE at once and from 500 on it ends in
OVERPRESSURE (R102); elsewhere the selector is ordered there (R100). With no candidate, a grant held or no permission only the
vent closes. A band change to STOP suspends a held grant: its request returns to the head marked as resumed, the selector moves on
as it was, and its requester waits (R107). Taken after a DONE of the same moment it finds no grant, and the queue, the rotation count,
the last seat and the selector are as if that release had selected no holder, also where the release has granted fills that their
start checks ended. That the part without the selection is kept apart for the moment, takes each command of the moment too, and
becomes the part where a pass of one withdraws the permission, is the model's reading of R107 (notes/assumptions/43.md). -/
def Obligations.ArbiterGrantsAndSuspends : Prop :=
  (∀ (o : VentOwner) (s : State), s.awake → (∃ v ∈ s.pneu.vents, v.owner = o ∧ v.left = 0) → (∀ q, o ≠ .requester q) →
    let p := { s.pneu with vents := s.pneu.vents.filter fun v => v.owner != o }
    let only (keep : Entry → Bool) (l : List Entry) : List Entry := if ∃ e ∈ l, keep e = true then l.filter keep else l
    let eligibles := p.queue.filter fun e => decide (ventedCells p.vents e.requester.seat &&& e.cells = 0)
    let rotated :=
      match p.lastSeat with
      | some x => if p.rotation = s.rotationLimit then only (fun e => decide (e.requester.seat ≠ x)) eligibles else eligibles
      | none => eligibles
    let classed := only (fun e => e.requester.isSupport) rotated
    let parked :=
      match p.selector with
      | .atRest pos => if p.parkNone then classed else only (fun e => decide (seatPos e.requester.seat = pos)) classed
      | .moving _ _ => classed
    (s.pneu.holder ≠ none ∨ s.budget.result.permitted = false ∨ parked = [] →
      exec (.ventEnd o) s = .next { s with pneu := p }) ∧
    (s.pneu.holder = none → s.budget.result.permitted = true → ∀ e, parked.head? = some e →
      let x := e.requester.seat
      let granted : Pneumatic := { p with
        queue := p.queue.filter fun q => decide (q.requester ≠ e.requester)
        rotation :=
          if p.lastSeat ≠ some x then 1
          else if e.resumed then p.rotation else min s.rotationLimit (p.rotation + 1)
        lastSeat := some x
        holder := some { entry := e, p0 := none, riseTimer := none, fillTimer := none, elapsed := 0 } }
      let takes (q : Pneumatic) : Prop :=
        ∃ t, exec (.ventEnd o) s = .next t ∧ t.pneu = q ∧ t.bystander = s.bystander ∧
          (∀ y, e.requester = .massage y → (s.cursor y).state = .running → (s.cursor y).phase = .fillWait →
            t.cursor y = { s.cursor y with phase := .filling }) ∧
          ∀ y c, e.requester = .support y → (s.regulator y).service = .waiting c →
            t.regulator y = { s.regulator y with service := .filling c }
      (∀ pos, p.selector = .atRest pos → pos ≠ seatPos x →
        takes { granted with selector := .moving (seatPos x) s.switchTime }) ∧
      (∀ pos left, p.selector = .moving pos left →
        takes { granted with
          selector := if pos = seatPos x then .moving pos left else .moving (seatPos x) s.switchTime }) ∧
      (p.selector = .atRest (seatPos x) → s.manifoldOf x < 500 → s.manifoldOf x < e.target →
        takes { granted with
          compressor := true
          holder := some
            { entry := e, p0 := some (s.manifoldOf x), fillTimer := some s.maximumFill, elapsed := 0
              riseTimer := if s.riseWindow < s.maximumFill then some s.riseWindow else none } }) ∧
      (p.selector = .atRest (seatPos x) → p.queue = [e] →
        let emptied (t : State) : Prop := exec (.ventEnd o) s = .next t ∧ t.bystander = s.bystander ∧
          t.pneu.holder = none ∧ t.pneu.compressor = false ∧ t.pneu.lastSeat = some x ∧ t.pneu.rotation = granted.rotation
        (∀ y, e.requester = .massage y → (s.cursor y).state = .running → (s.cursor y).phase = .fillWait →
          (s.manifoldOf x < 500 → e.target ≤ s.manifoldOf x → (s.cursor y).effDwell ≠ 0 →
            ∃ t, emptied t ∧ t.pneu.queue = [] ∧
              t.cursor y = { s.cursor y with phase := .dwell, phaseMs := 100 * (s.cursor y).effDwell }) ∧
          (500 ≤ s.manifoldOf x → e.cells ≠ 0 →
            ∃ t, emptied t ∧ t.pneu.queue = [] ∧ (t.cursor y).state = .fault ∧ (t.cursor y).fault = .overpressure ∧
              (⟨.relief y, e.cells, s.ventWindow⟩ : VentOp) ∈ t.pneu.vents)) ∧
        ∀ y c, e.requester = .support y → (s.regulator y).service = .waiting c → (∀ k, k ≠ c → s.need y k ≠ .fill) →
          (s.manifoldOf x < 500 → e.target ≤ s.manifoldOf x →
            ∃ t, emptied t ∧ t.pneu.queue = [] ∧ (t.regulator y).service = .free ∧ t.need y c = .held) ∧
          (500 ≤ s.manifoldOf x → e.cells ≠ 0 →
            ∃ t, emptied t ∧ t.pneu.queue = [] ∧ (t.regulator y).service = .free ∧ t.setpoint y c = ⟨0, .device⟩ ∧
              t.faultMark y c = true ∧ t.need y c = .vent)))) ∧
  (∀ (v : Nat) (h : Holder) (x : Seat) (l r : Int) (s : State), s.awake → 60 ≤ v → v < 90 → s.supply.band ≠ .stop →
    s.pneu.holder = some h → h.p0 ≠ none → h.entry.requester = .massage x → (s.cursor x).state = .running →
    (s.cursor x).phase = .filling → (s.cursor x).effDwell ≠ 0 → s.queueLaws → (∀ y, (s.regulator y).cuts = Four.all none) →
    let read (y : Seat) : Nat := if y = .left then min 1000 l.toNat else min 1000 r.toNat
    h.entry.target ≤ read x → read x < 500 →
    ∃ t u, exec (.manifoldSample l r) s = .next t ∧ exec (.supplySample v) t = .next u ∧ (u.cursor x).phase = .dwell ∧
      u.pneu = { s.pneu with
        manifold := ⟨read .left, read .right⟩, holder := none, compressor := false, parkNone := s.parksNowhere
        selector :=
          if s.parksNowhere = true then
            match s.pneu.selector with
            | .atRest .neutral => .atRest .neutral
            | .moving .neutral left => .moving .neutral left
            | _ => .moving .neutral s.switchTime
          else s.pneu.selector }) ∧
  (∀ (v : Nat) (h : Holder) (s : State), s.awake → 60 ≤ v → v < 90 → s.supply.band ≠ .stop → s.pneu.holder = some h →
    ∃ t, exec (.supplySample v) s = .next t ∧
      t.pneu = { s.pneu with
        compressor := false, holder := none, queue := { h.entry with resumed := true } :: s.pneu.queue } ∧
      t.budget.result.permitted = false ∧
      (∀ y, h.entry.requester = .massage y → (s.cursor y).state = .running → (s.cursor y).phase = .filling →
        t.cursor y = { s.cursor y with phase := .fillWait }) ∧
      ∀ y c, h.entry.requester = .support y → (s.regulator y).service = .filling c →
        t.regulator y = { s.regulator y with service := .waiting c }) ∧
  ∀ (c : Instr) (p : Part) (s t u : State), s.powered = true → p.powered = true → s.releases = .apart p →
    (∀ ads l r v, c ≠ .powerOn ads l r v) → c ≠ .lossOfSupply →
    exec c { s with releases := .select } = .next t → exec c (s.shutApart p) = .next u →
    exec c s = .next
      (if p.budget.result.permitted = true ∧ u.budget.result.demandSeen = true ∧ u.budget.result.permitted = false then
        { u with releases := .select }
      else { t with releases := if t.powered = true then .apart u.toPart else .select })

/-! ## Store, cursor and regulator events -/

/-- A bit error adds 1 to the weight of a RAM record, keeping its content, and leaves every other record and all else as it was; it
does not reach a ROM record. -/
def Obligations.BitErrorAddsWeight : Prop :=
  ∀ (i : StepIndex) (s : State), s.awake → s.stored →
    (i.toNat < 64 → exec (.cellBitError i) s = .next s) ∧
    (64 ≤ i.toNat → ∃ t, exec (.cellBitError i) s = .next t ∧
      t.ramRecord i = { content := (s.ramRecord i).content, weight := (s.ramRecord i).weight + 1 } ∧
      (∀ k, k ≠ i → t.ramRecord k = s.ramRecord k) ∧ { t with ram := s.ram } = s)

/-- A dwell's end, its phase time at 0, advances (R145): by the copy's next, or back by its repeat, the counter starting at one less
than the count, counting down to idle and going idle at its owner; a repeating step under another's counter is a NEST fault, END goes
to ENDING. The step entered dwells, vents or asks for its fill; a BLANK one, an uncorrectable one and the eighth in a row that takes no
time are the faults BLANK, STORE and LOOP (R138, R140, R151), with a vent over M0 to M11; a record of ROM and one of weight 1, which is
corrected, are entered as a clean one is. That a cursor in FAULT by BLANK or STORE holds the step copy, effective target and effective
dwell of the step before is the model's choice (notes/assumptions/41.md). A cursor not at the end of a DWELL keeps all. The program
timer's end, the time remaining at 0, takes a RUNNING cursor to ENDING with cause EXPIRED. -/
def Obligations.DwellAndProgramTimersAct : Prop :=
  (∀ (x : Seat) (s : State), s.awake →
    let c := s.cursor x
    let dwells := c.state = .running ∧ c.phase = .dwell ∧ c.phaseMs = 0
    let leads (i : StepIndex) (f : StepFields) : Option (StepIndex × Option RepeatCounter) :=
      match f.again, c.counter with
      | none, none => f.next.map fun j => (j, none)
      | none, some k => f.next.map fun j => (j, if k.owner = i then none else some k)
      | some q, none => if 2 ≤ q.count then some (q.target, some ⟨q.count - 1, i⟩) else f.next.map fun j => (j, none)
      | some q, some k =>
        if k.owner ≠ i then none
        else if 2 ≤ k.value then some (q.target, some ⟨k.value - 1, i⟩)
        else f.next.map fun j => (j, none)
    let faults (code : FaultCode) (was : Cursor) : Prop :=
      ∃ t, exec (.dwellEnd x) s = .next t ∧ t.bystander = s.bystander ∧
        t.cursor x = { was with state := .fault, phase := .none, counter := none, phaseMs := 0, fault := code } ∧
        (s.airQuiet = true → (⟨.requester (.massage x), 0x0FFF, s.ventWindow⟩ : VentOp) ∈ t.pneu.vents ∧
          s.told t .airFault x (.massageFault code (was.step.getD 0)) none)
    (¬ dwells → exec (.dwellEnd x) s = .next s) ∧
    ∀ i f, c.step = some i → c.copy = some f → dwells →
      ((∀ q k, f.again = some q → c.counter = some k → k.owner ≠ i → faults .nest c) ∧
      (f.next = none → leads i f = none → (∀ q k, f.again = some q → c.counter = some k → k.owner = i) →
        ∃ t, exec (.dwellEnd x) s = .next t ∧ (t.cursor x).state = .ending ∧ (t.cursor x).cause = .ended ∧
          (t.cursor x).counter = none ∧ t.bystander = s.bystander) ∧
      ∀ j k, leads i f = some (j, k) →
        let inRam := 64 ≤ j.toNat
        let stored := s.ramRecord j
        (inRam → stored.content = none → stored.weight ≤ 1 → faults .blank { c with step := some j }) ∧
        (inRam → 2 ≤ stored.weight → faults .store { c with step := some j }) ∧
        ∀ g, (if inRam then stored.weight ≤ 1 ∧ stored.content = some g else g = romRecord j.toNat) →
          let dwell := if g.dwell = 0 then 0 else max 1 (g.dwell * speedPercent c.speed / 100)
          let entered := { c with
            step := some j, copy := some g, counter := k, hops := 0, phaseMs := 0, effDwell := dwell
            effTarget := min 400 (g.target * (50 + 10 * c.intensity) / 100) }
          (g.vent = 0 → g.fill = 0 → g.dwell ≠ 0 →
            (¬ inRam ∨ stored.weight = 0 →
              exec (.dwellEnd x) s = .next (s.modCursor x fun _ => { entered with phaseMs := 100 * dwell })) ∧
            (inRam → stored.weight = 1 →
              ∃ t, exec (.dwellEnd x) s = .next t ∧ t.cursor x = { entered with phaseMs := 100 * dwell } ∧
                (s.stored → t.ramRecord j = ⟨some g, 0⟩) ∧ t.log.count = min 255 (s.log.count + 1) ∧
                t.bystander = s.bystander)) ∧
          (g.vent ≠ 0 → s.airQuiet = true →
            ∃ t, exec (.dwellEnd x) s = .next t ∧ t.cursor x = { entered with phase := .vent } ∧
              (⟨.requester (.massage x), g.vent, s.ventWindow⟩ : VentOp) ∈ t.pneu.vents ∧ t.bystander = s.bystander) ∧
          (g.vent = 0 → g.fill ≠ 0 → s.airQuiet = true → s.budget.cEff ≤ s.overhead →
            ∃ t, exec (.dwellEnd x) s = .next t ∧
              t.cursor x = { entered with phase := .fillWait, hops := if g.dwell = 0 then c.hops else 0 } ∧
              t.pneu = { s.pneu with queue := [⟨.massage x, g.fill, entered.effTarget, false⟩] } ∧
              t.bystander = s.bystander) ∧
          (g.vent = 0 → g.fill = 0 → g.dwell = 0 → g.again = none → g.next = some j → c.hops = 0 →
            (∀ q, k = some q → q.owner ≠ j) → faults .loop { entered with hops := 8 }))) ∧
  ∀ (x : Seat) (s : State), s.awake →
    ((s.cursor x).state ≠ .running ∨ (s.cursor x).seconds ≠ 0 → exec (.programTimerExpiry x) s = .next s) ∧
    ((s.cursor x).state = .running → (s.cursor x).seconds = 0 →
      ∃ t, exec (.programTimerExpiry x) s = .next t ∧
        t.cursor x = { s.cursor x with
          state := .ending, phase := .none, counter := none, phaseMs := 0, cause := .expired } ∧
        t.bystander = s.bystander)

/-- The refresh timer, run out, starts again and gives the need FILL to every HELD cell with a setpoint and no fault mark. In an EMPTY
seat, with the regulator in service or with nothing to fill that is all; otherwise the lowest cell to be filled is asked for, and
waits in the queue of a starved part. -/
def Obligations.SupportRefreshMarks : Prop :=
  ∀ (x : Seat) (s : State), s.awake →
    let mark (c : HoldCell) : Need :=
      if (s.setpoint x c).value ≠ 0 ∧ s.faultMark x c = false ∧ s.need x c = .held then .fill else s.need x c
    let r := s.modRegulator x fun g =>
      { g with needs := ⟨mark .l0, mark .l1, mark .s0, mark .s1⟩, refresh := s.supportInterval }
    ((s.regulator x).refresh ≠ 0 → exec (.supportRefreshExpiry x) s = .next s) ∧
    ((s.regulator x).refresh = 0 →
    (∃ t, exec (.supportRefreshExpiry x) s = .next t ∧ (t.regulator x).refresh = s.supportInterval ∧
      t.bystander = r.bystander) ∧
    ((s.seat x).occupancy = .empty ∨ (s.regulator x).service ≠ .free ∨ (∀ c, mark c ≠ .fill) →
      exec (.supportRefreshExpiry x) s = .next r) ∧
    ∀ k, (s.seat x).occupancy ≠ .empty → (s.regulator x).service = .free → mark k = .fill →
      (∀ c, cellNumber c < cellNumber k → mark c ≠ .fill) → s.airQuiet = true → s.budget.cEff ≤ s.overhead →
      ∃ t, exec (.supportRefreshExpiry x) s = .next t ∧
        t.regulator x =
          { s.regulator x with
            needs := ⟨mark .l0, mark .l1, mark .s0, mark .s1⟩, service := .waiting k, refresh := s.supportInterval } ∧
        t.pneu = { s.pneu with queue := [⟨.support x, cellBit k, min 400 (s.setpoint x k).value, false⟩] } ∧
        t.bystander = r.bystander)

/-! ## What every step keeps

Each holds of the part and of the part that a refusing pass of the moment would find (`State.inEither`, notes/assumptions/43.md). -/

/-- Every step keeps the store, the directory and the parameters in canonical form and every parameter within its range; and it
keeps the GATEWAY's right over ACCESS at READ/WRITE and the received bytes at 35 or fewer.
The law is that of the part, and of the part kept apart for the moment of a release, where there is one (notes/assumptions/43.md). -/
def Obligations.StepKeepsStoreAndAccess : Prop :=
  (∀ s t : State, s.inEither State.stored → step s = .next t → t.inEither State.stored) ∧
  (∀ s t : State, s.inEither State.gatewayRules → step s = .next t → t.inEither State.gatewayRules) ∧
  ∀ s t : State, s.inEither State.frameFits → step s = .next t → t.inEither State.frameFits

/-- Every step keeps each attention line exact, each pair once in its set and every pair where its kind belongs.
The law is that of the part, and of the part kept apart for the moment of a release, where there is one (notes/assumptions/43.md). -/
def Obligations.StepKeepsNotices : Prop :=
  let laws (s : State) : Prop := s.noticesSound ∧ s.noticesPlaced
  ∀ s t : State, s.inEither laws → step s = .next t → t.inEither laws

/-- Every step keeps each attention line low exactly while its set holds a pair that is not masked.
The law is that of the part, and of the part kept apart for the moment of a release, where there is one (notes/assumptions/43.md). -/
def Obligations.LinesStayExact : Prop :=
  let exact (s : State) : Prop := ∀ m, ((s.notices.get m).line = true ↔
    ∃ n ∈ (s.notices.get m).pending, (s.notices.get m).mask.getLsbD n.kind.bit = false)
  ∀ s t : State, s.inEither exact → step s = .next t → t.inEither exact

/-- Every step keeps C_eff at min(C, band cap) − 20·d, 0 at least.
The law is that of the part, and of the part kept apart for the moment of a release, where there is one (notes/assumptions/43.md). -/
def Obligations.StepKeepsCeilingExact : Prop :=
  let laws (s : State) : Prop := s.stored ∧ s.ceilingExact
  ∀ s t : State, s.inEither laws → step s = .next t → t.inEither laws

/-- Every step keeps the zones and fans of a seat that is neither OCCUPIED nor VACATING off.
The law is that of the part, and of the part kept apart for the moment of a release, where there is one (notes/assumptions/43.md). -/
def Obligations.StepKeepsIdleSeatsOff : Prop :=
  ∀ s t : State, s.inEither State.idleSeatsOff → step s = .next t → t.inEither State.idleSeatsOff

/-- Every step keeps each grant within its request and each fan within its demand, and the allocation within C_eff.
The law is that of the part, and of the part kept apart for the moment of a release, where there is one (notes/assumptions/43.md). -/
def Obligations.StepKeepsGrantsWithinDemand : Prop :=
  (∀ s t : State, s.inEither State.grantsWithinDemand → step s = .next t → t.inEither State.grantsWithinDemand) ∧
  ∀ s t : State, s.inEither State.allocationFits → step s = .next t → t.inEither State.allocationFits

/-- Every step keeps the laws of the pump grant queue (R94, R99): one entry per requester, so four at most, the holder never queued,
each entry and the holder with a non-empty cell set and a target of 400 at most, the rotation count within the limit.
The law is that of the part, and of the part kept apart for the moment of a release, where there is one (notes/assumptions/43.md). -/
def Obligations.StepKeepsQueueLaws : Prop :=
  let laws (s : State) : Prop := s.stored ∧ s.queueLaws
  ∀ s t : State, s.inEither laws → step s = .next t → t.inEither laws

/-- Every step keeps the compressor's law (R90); with the store and the queue in order it keeps each requester to its own cells (R91,
R94), and then no cell's fill valve open together with its vent valve (R89).
The law is that of the part, and of the part kept apart for the moment of a release, where there is one (notes/assumptions/43.md). -/
def Obligations.StepKeepsCompressorAndValveLaws : Prop :=
  (∀ s t : State, s.inEither State.compressorLaw → step s = .next t → t.inEither State.compressorLaw) ∧
  let owned (s : State) : Prop := s.stored ∧ s.cellsOwned
  let laws (s : State) : Prop := owned s ∧ s.queueLaws ∧ s.valvesApart
  (∀ s t : State, s.inEither owned → step s = .next t → t.inEither owned) ∧
  ∀ s t : State, s.inEither laws → step s = .next t → t.inEither laws

/-- No command but WRITE STEP, a STOP, POWER ON, the loss of the supply and a sample below 6.0 V changes the content of any step
record. Every STOP is left out, whatever frame it ends.
The law is that of the part, and of the part kept apart for the moment of a release, where there is one (notes/assumptions/43.md). -/
def Obligations.OnlyWriteStepChangesContent : Prop :=
  ∀ (c : Instr) (content : StepIndex → Content) (s t : State), rewritesStore c = false →
    let holds (s : State) : Prop := s.stored ∧ ∀ i : StepIndex, (s.ramRecord i).content = content i
    s.inEither holds → exec c s = .next t → t.inEither holds

/-- Reset meets every invariant above, and no part is kept apart. -/
def Obligations.ResetMeetsInvariants : Prop :=
  let s := State.reset
  s.stored ∧ s.noticesSound ∧ s.noticesPlaced ∧ s.ceilingExact ∧ s.idleSeatsOff ∧ s.grantsWithinDemand ∧
    s.allocationFits ∧ s.queueLaws ∧ s.compressorLaw ∧ s.cellsOwned ∧ s.valvesApart ∧ s.gatewayRules ∧ s.frameFits ∧
    s.releases = .select
end

