-- ==== Sys2Proof/Laws/State.lean ====
section
/-! SUPPORT. One lemma per collection and per update of State: reading what was written, and leaving the rest. -/
namespace Sys2Proof

section
variable {α : Type}

@[simp] theorem PerSeat.get_set_same (p : PerSeat α) (x : Seat) (v : α) : (p.set x v).get x = v := by cases x <;> rfl

@[simp] theorem PerSeat.get_set_other (p : PerSeat α) (x y : Seat) (v : α) (h : y ≠ x) : (p.set x v).get y = p.get y := by
  cases x <;> cases y <;> first | rfl | exact absurd rfl h

theorem PerSeat.ext_get (p q : PerSeat α) (h : ∀ x, p.get x = q.get x) : p = q := by
  cases p; cases q; simpa [PerSeat.get] using And.intro (h .left) (h .right)

@[simp] theorem PerSeat.get_both (v : α) (x : Seat) : (PerSeat.both v).get x = v := by cases x <;> rfl

@[simp] theorem PerMaster.get_set_same (p : PerMaster α) (m : Master) (v : α) : (p.set m v).get m = v := by cases m <;> rfl

@[simp] theorem PerMaster.get_set_other (p : PerMaster α) (m k : Master) (v : α) (h : k ≠ m) :
    (p.set m v).get k = p.get k := by
  cases m <;> cases k <;> first | rfl | exact absurd rfl h

@[simp] theorem Five.get_set_same (p : Five α) (x : HeatPart) (v : α) : (p.set x v).get x = v := by cases x <;> rfl

@[simp] theorem Five.get_set_other (p : Five α) (x y : HeatPart) (v : α) (h : y ≠ x) : (p.set x v).get y = p.get y := by
  cases x <;> cases y <;> first | rfl | exact absurd rfl h

@[simp] theorem Five.get_map {β : Type} (f : α → β) (p : Five α) (x : HeatPart) : (p.map f).get x = f (p.get x) := by
  cases x <;> rfl

@[simp] theorem Five.get_all (v : α) (x : HeatPart) : (Five.all v).get x = v := by cases x <;> rfl

@[simp] theorem Pair.get_set_same (p : Pair α) (x : FanPart) (v : α) : (p.set x v).get x = v := by cases x <;> rfl

@[simp] theorem Pair.get_set_other (p : Pair α) (x y : FanPart) (v : α) (h : y ≠ x) : (p.set x v).get y = p.get y := by
  cases x <;> cases y <;> first | rfl | exact absurd rfl h

@[simp] theorem Pair.get_map {β : Type} (f : α → β) (p : Pair α) (x : FanPart) : (p.map f).get x = f (p.get x) := by
  cases x <;> rfl

@[simp] theorem Four.get_set_same (p : Four α) (x : HoldCell) (v : α) : (p.set x v).get x = v := by cases x <;> rfl

@[simp] theorem Four.get_set_other (p : Four α) (x y : HoldCell) (v : α) (h : y ≠ x) : (p.set x v).get y = p.get y := by
  cases x <;> cases y <;> first | rfl | exact absurd rfl h

@[simp] theorem Four.get_all (v : α) (x : HoldCell) : (Four.all v).get x = v := by cases x <;> rfl

theorem PerSeat.set_get_same (p : PerSeat α) (x : Seat) : p.set x (p.get x) = p := by cases x <;> rfl

theorem Five.set_get_same (p : Five α) (x : HeatPart) : p.set x (p.get x) = p := by cases x <;> rfl

theorem Pair.set_get_same (p : Pair α) (x : FanPart) : p.set x (p.get x) = p := by cases x <;> rfl

end

@[simp] theorem Rights.get_set_same (p : Rights) (r : Region) (v : Right) : (p.set r v).get r = v := by cases r <;> rfl

@[simp] theorem Rights.get_set_other (p : Rights) (r q : Region) (v : Right) (h : q ≠ r) : (p.set r v).get q = p.get q := by
  cases r <;> cases q <;> first | rfl | exact absurd rfl h

namespace Machine

/-! ## Reading back an update -/

@[simp] theorem State.seat_modSeat (s : State) (x : Seat) (f : SeatRecord → SeatRecord) :
    (s.modSeat x f).seat x = f (s.seat x) := by simp [State.modSeat, State.seat]

@[simp] theorem State.seat_modSeat_other (s : State) (x y : Seat) (f : SeatRecord → SeatRecord) (h : y ≠ x) :
    (s.modSeat x f).seat y = s.seat y := by simp [State.modSeat, State.seat, h]

@[simp] theorem State.cursor_modCursor (s : State) (x : Seat) (f : Cursor → Cursor) :
    (s.modCursor x f).cursor x = f (s.cursor x) := by simp [State.modCursor, State.cursor]

@[simp] theorem State.cursor_modCursor_other (s : State) (x y : Seat) (f : Cursor → Cursor) (h : y ≠ x) :
    (s.modCursor x f).cursor y = s.cursor y := by simp [State.modCursor, State.cursor, h]

@[simp] theorem State.regulator_modRegulator (s : State) (x : Seat) (f : Regulator → Regulator) :
    (s.modRegulator x f).regulator x = f (s.regulator x) := by simp [State.modRegulator, State.regulator]

@[simp] theorem State.regulator_modRegulator_other (s : State) (x y : Seat) (f : Regulator → Regulator) (h : y ≠ x) :
    (s.modRegulator x f).regulator y = s.regulator y := by simp [State.modRegulator, State.regulator, h]

@[simp] theorem State.zone_setZone (s : State) (z : ZoneId) (c : ZoneChannel) : (s.setZone z c).zone z = c := by
  simp [State.setZone, State.zone]

theorem State.zone_setZone_other (s : State) (z w : ZoneId) (c : ZoneChannel) (h : w ≠ z) :
    (s.setZone z c).zone w = s.zone w := by
  obtain ⟨x, p⟩ := z
  obtain ⟨y, q⟩ := w
  by_cases hx : y = x
  · subst hx
    have hp : q ≠ p := fun e => h (by rw [e])
    simp [State.setZone, State.zone, hp]
  · simp [State.setZone, State.zone, hx]

@[simp] theorem State.fan_setFan (s : State) (f : FanId) (c : FanChannel) : (s.setFan f c).fan f = c := by
  simp [State.setFan, State.fan]

theorem State.fan_setFan_other (s : State) (f g : FanId) (c : FanChannel) (h : g ≠ f) :
    (s.setFan f c).fan g = s.fan g := by
  obtain ⟨x, p⟩ := f
  obtain ⟨y, q⟩ := g
  by_cases hx : y = x
  · subst hx
    have hp : q ≠ p := fun e => h (by rw [e])
    simp [State.setFan, State.fan, hp]
  · simp [State.setFan, State.fan, hx]

@[simp] theorem State.level_setLevel (s : State) (z : ZoneId) (v : Setting) : (s.setLevel z v).level z = v := by
  simp [State.setLevel, State.level]

@[simp] theorem State.fanLevel_setFanLevel (s : State) (f : FanId) (v : Setting) : (s.setFanLevel f v).fanLevel f = v := by
  simp [State.setFanLevel, State.fanLevel]

@[simp] theorem State.setpoint_setSetpoint (s : State) (x : Seat) (c : HoldCell) (v : Setting) :
    (s.setSetpoint x c v).setpoint x c = v := by simp [State.setSetpoint, State.setpoint]

/-! ## What each update leaves: one lemma per field, by definition -/

section
variable (s : State) (x : Seat) (z : ZoneId) (f : FanId)

@[simp] theorem State.modSeat_zones (g : SeatRecord → SeatRecord) : (s.modSeat x g).zones = s.zones := rfl
@[simp] theorem State.modSeat_fans (g : SeatRecord → SeatRecord) : (s.modSeat x g).fans = s.fans := rfl
@[simp] theorem State.modSeat_budget (g : SeatRecord → SeatRecord) : (s.modSeat x g).budget = s.budget := rfl
@[simp] theorem State.modSeat_pneu (g : SeatRecord → SeatRecord) : (s.modSeat x g).pneu = s.pneu := rfl
@[simp] theorem State.modSeat_params (g : SeatRecord → SeatRecord) : (s.modSeat x g).params = s.params := rfl
@[simp] theorem State.modSeat_access (g : SeatRecord → SeatRecord) : (s.modSeat x g).access = s.access := rfl
@[simp] theorem State.modSeat_notices (g : SeatRecord → SeatRecord) : (s.modSeat x g).notices = s.notices := rfl
@[simp] theorem State.modSeat_cursors (g : SeatRecord → SeatRecord) : (s.modSeat x g).cursors = s.cursors := rfl
@[simp] theorem State.modSeat_regulators (g : SeatRecord → SeatRecord) : (s.modSeat x g).regulators = s.regulators := rfl
@[simp] theorem State.modSeat_reports (g : SeatRecord → SeatRecord) : (s.modSeat x g).reports = s.reports := rfl

@[simp] theorem State.setZone_seats (c : ZoneChannel) : (s.setZone z c).seats = s.seats := rfl
@[simp] theorem State.setZone_fans (c : ZoneChannel) : (s.setZone z c).fans = s.fans := rfl
@[simp] theorem State.setZone_budget (c : ZoneChannel) : (s.setZone z c).budget = s.budget := rfl
@[simp] theorem State.setZone_pneu (c : ZoneChannel) : (s.setZone z c).pneu = s.pneu := rfl
@[simp] theorem State.setZone_params (c : ZoneChannel) : (s.setZone z c).params = s.params := rfl
@[simp] theorem State.setZone_access (c : ZoneChannel) : (s.setZone z c).access = s.access := rfl
@[simp] theorem State.setZone_notices (c : ZoneChannel) : (s.setZone z c).notices = s.notices := rfl
@[simp] theorem State.setZone_cursors (c : ZoneChannel) : (s.setZone z c).cursors = s.cursors := rfl
@[simp] theorem State.setZone_reports (c : ZoneChannel) : (s.setZone z c).reports = s.reports := rfl

@[simp] theorem State.setFan_seats (c : FanChannel) : (s.setFan f c).seats = s.seats := rfl
@[simp] theorem State.setFan_zones (c : FanChannel) : (s.setFan f c).zones = s.zones := rfl
@[simp] theorem State.setFan_budget (c : FanChannel) : (s.setFan f c).budget = s.budget := rfl
@[simp] theorem State.setFan_pneu (c : FanChannel) : (s.setFan f c).pneu = s.pneu := rfl
@[simp] theorem State.setFan_params (c : FanChannel) : (s.setFan f c).params = s.params := rfl
@[simp] theorem State.setFan_access (c : FanChannel) : (s.setFan f c).access = s.access := rfl
@[simp] theorem State.setFan_notices (c : FanChannel) : (s.setFan f c).notices = s.notices := rfl
@[simp] theorem State.setFan_reports (c : FanChannel) : (s.setFan f c).reports = s.reports := rfl

@[simp] theorem State.modCursor_seats (g : Cursor → Cursor) : (s.modCursor x g).seats = s.seats := rfl
@[simp] theorem State.modCursor_zones (g : Cursor → Cursor) : (s.modCursor x g).zones = s.zones := rfl
@[simp] theorem State.modCursor_pneu (g : Cursor → Cursor) : (s.modCursor x g).pneu = s.pneu := rfl
@[simp] theorem State.modCursor_budget (g : Cursor → Cursor) : (s.modCursor x g).budget = s.budget := rfl
@[simp] theorem State.modCursor_params (g : Cursor → Cursor) : (s.modCursor x g).params = s.params := rfl
@[simp] theorem State.modCursor_access (g : Cursor → Cursor) : (s.modCursor x g).access = s.access := rfl
@[simp] theorem State.modCursor_notices (g : Cursor → Cursor) : (s.modCursor x g).notices = s.notices := rfl
@[simp] theorem State.modCursor_ram (g : Cursor → Cursor) : (s.modCursor x g).ram = s.ram := rfl
@[simp] theorem State.modCursor_reports (g : Cursor → Cursor) : (s.modCursor x g).reports = s.reports := rfl

@[simp] theorem State.modPneu_pneu (g : Pneumatic → Pneumatic) : (s.modPneu g).pneu = g s.pneu := rfl
@[simp] theorem State.modPneu_seats (g : Pneumatic → Pneumatic) : (s.modPneu g).seats = s.seats := rfl
@[simp] theorem State.modPneu_zones (g : Pneumatic → Pneumatic) : (s.modPneu g).zones = s.zones := rfl
@[simp] theorem State.modPneu_fans (g : Pneumatic → Pneumatic) : (s.modPneu g).fans = s.fans := rfl
@[simp] theorem State.modPneu_budget (g : Pneumatic → Pneumatic) : (s.modPneu g).budget = s.budget := rfl
@[simp] theorem State.modPneu_params (g : Pneumatic → Pneumatic) : (s.modPneu g).params = s.params := rfl
@[simp] theorem State.modPneu_cursors (g : Pneumatic → Pneumatic) : (s.modPneu g).cursors = s.cursors := rfl
@[simp] theorem State.modPneu_notices (g : Pneumatic → Pneumatic) : (s.modPneu g).notices = s.notices := rfl
@[simp] theorem State.modPneu_ram (g : Pneumatic → Pneumatic) : (s.modPneu g).ram = s.ram := rfl
@[simp] theorem State.modPneu_reports (g : Pneumatic → Pneumatic) : (s.modPneu g).reports = s.reports := rfl

@[simp] theorem State.modBudget_budget (g : Budget → Budget) : (s.modBudget g).budget = g s.budget := rfl
@[simp] theorem State.modBudget_zones (g : Budget → Budget) : (s.modBudget g).zones = s.zones := rfl
@[simp] theorem State.modBudget_seats (g : Budget → Budget) : (s.modBudget g).seats = s.seats := rfl
@[simp] theorem State.modBudget_fans (g : Budget → Budget) : (s.modBudget g).fans = s.fans := rfl
@[simp] theorem State.modBudget_pneu (g : Budget → Budget) : (s.modBudget g).pneu = s.pneu := rfl
@[simp] theorem State.modBudget_params (g : Budget → Budget) : (s.modBudget g).params = s.params := rfl
@[simp] theorem State.modBudget_supply (g : Budget → Budget) : (s.modBudget g).supply = s.supply := rfl
@[simp] theorem State.modBudget_notices (g : Budget → Budget) : (s.modBudget g).notices = s.notices := rfl
@[simp] theorem State.modBudget_access (g : Budget → Budget) : (s.modBudget g).access = s.access := rfl
@[simp] theorem State.modBudget_reports (g : Budget → Budget) : (s.modBudget g).reports = s.reports := rfl

@[simp] theorem State.report_pneu (r : Report) : (s.report r).pneu = s.pneu := rfl
@[simp] theorem State.report_zones (r : Report) : (s.report r).zones = s.zones := rfl
@[simp] theorem State.report_budget (r : Report) : (s.report r).budget = s.budget := rfl
@[simp] theorem State.report_params (r : Report) : (s.report r).params = s.params := rfl
@[simp] theorem State.report_notices (r : Report) : (s.report r).notices = s.notices := rfl
@[simp] theorem State.report_cursors (r : Report) : (s.report r).cursors = s.cursors := rfl

end

end Machine
end Sys2Proof
end

