-- ==== Sys2Proof/Laws/Arbiter.lean ====
section
/-! SUPPORT. What the arbiter's operations can do, said once: the narrowing of candidates, the choice, the count of a grant, the
queue without a requester's entry; what the ends of a heating window leave; and what an ended fill, a restarted fan and a timer that
has not run out mean. -/
namespace Sys2Proof.Machine

/-! ## Selection (spec/05 R98) -/

/-- A narrowing step keeps those that satisfy it where one does, and all of them otherwise. -/
theorem narrow_eq (keep : Entry → Bool) (l : List Entry) :
    narrow keep l = if ∃ e ∈ l, keep e = true then l.filter keep else l := by
  by_cases h : ∃ e ∈ l, keep e = true
  · obtain ⟨e, he, hk⟩ := id h
    rw [if_pos h, narrow, if_neg]
    simpa using ⟨e, he, hk⟩
  · rw [if_neg h, narrow, if_pos]
    simpa using h

theorem narrow_sublist (keep : Entry → Bool) (l : List Entry) : (narrow keep l).Sublist l := by
  unfold narrow
  split
  · exact List.Sublist.refl _
  · exact List.filter_sublist

/-- No step leaves no candidate. -/
theorem narrow_eq_nil (keep : Entry → Bool) (l : List Entry) : narrow keep l = [] ↔ l = [] := by
  unfold narrow
  split
  · rfl
  · rename_i h
    exact ⟨fun e => absurd (by simp [e]) h, fun e => by simp [e]⟩

theorem rotationStep_sublist (p : Pneumatic) (k : Nat) (l : List Entry) : (rotationStep p k l).Sublist l := by
  unfold rotationStep
  split
  · split
    · exact narrow_sublist _ _
    · exact List.Sublist.refl _
  · exact List.Sublist.refl _

theorem rotationStep_eq_nil (p : Pneumatic) (k : Nat) (l : List Entry) : rotationStep p k l = [] ↔ l = [] := by
  unfold rotationStep
  split
  · split
    · exact narrow_eq_nil _ _
    · rfl
  · rfl

theorem parkingStep_sublist (p : Pneumatic) (l : List Entry) : (parkingStep p l).Sublist l := by
  unfold parkingStep
  split
  · split
    · exact List.Sublist.refl _
    · exact narrow_sublist _ _
  · exact List.Sublist.refl _

theorem parkingStep_eq_nil (p : Pneumatic) (l : List Entry) : parkingStep p l = [] ↔ l = [] := by
  unfold parkingStep
  split
  · split
    · rfl
    · exact narrow_eq_nil _ _
  · rfl

/-- The entry chosen waits in the queue and none of its cells is in VENT (spec/05 R96, R98). -/
theorem choose_mem {s : State} {e : Entry} (h : choose s = some e) : e ∈ s.pneu.queue ∧ eligible s.pneu e = true := by
  have hm := ((parkingStep_sublist _ _).trans ((narrow_sublist _ _).trans (rotationStep_sublist _ _ _))).subset
    (List.mem_of_head? h)
  exact List.mem_filter.1 hm

/-- An entry is chosen wherever one is eligible (spec/05 R98). -/
theorem choose_eq_none (s : State) : choose s = none ↔ ∀ e ∈ s.pneu.queue, eligible s.pneu e = false := by
  simp only [choose, List.head?_eq_none_iff, parkingStep_eq_nil, classStep, narrow_eq_nil, rotationStep_eq_nil,
    List.filter_eq_nil_iff, Bool.not_eq_true]

/-! ## The grant (spec/05 R99, R100) -/

section
variable (k : Nat) (e : Entry) (p : Pneumatic)

/-- The count of a grant reaches the rotation count and the last granted seat alone. -/
theorem countGrant_eq : countGrant k e p =
    { p with
      rotation :=
        if p.lastSeat = some e.requester.seat then (if e.resumed then p.rotation else min k (p.rotation + 1)) else 1
      lastSeat := some e.requester.seat } := by
  unfold countGrant
  split
  · rename_i h
    split
    · rw [← h]
    · rw [← h]
  · rfl

@[simp] theorem countGrant_queue : (countGrant k e p).queue = p.queue := by rw [countGrant_eq]
@[simp] theorem countGrant_holder : (countGrant k e p).holder = p.holder := by rw [countGrant_eq]
@[simp] theorem countGrant_vents : (countGrant k e p).vents = p.vents := by rw [countGrant_eq]
@[simp] theorem countGrant_selector : (countGrant k e p).selector = p.selector := by rw [countGrant_eq]
@[simp] theorem countGrant_compressor : (countGrant k e p).compressor = p.compressor := by rw [countGrant_eq]
@[simp] theorem countGrant_parkNone : (countGrant k e p).parkNone = p.parkNone := by rw [countGrant_eq]
@[simp] theorem countGrant_lastSeat : (countGrant k e p).lastSeat = some e.requester.seat := by rw [countGrant_eq]

/-- The rotation count stays within its limit, which is at least 1 (spec/05 R99). -/
theorem countGrant_rotation (hk : 1 ≤ k) (hp : p.rotation ≤ k) : (countGrant k e p).rotation ≤ k := by
  rw [countGrant_eq]
  dsimp only
  split
  · split
    · exact hp
    · exact Nat.min_le_left _ _
  · exact hk

end

theorem mem_removeEntry (r : Requester) (l : List Entry) (e : Entry) :
    e ∈ removeEntry r l ↔ e ∈ l ∧ e.requester ≠ r := by simp [removeEntry, List.mem_filter]

theorem removeEntry_sublist (r : Requester) (l : List Entry) : (removeEntry r l).Sublist l := List.filter_sublist

/-! ## The ends of a heating window (spec/02 R31, R36) -/

theorem awaitsJudgement_eq (c : ZoneChannel) : c.awaitsJudgement = true ↔ c.carried = true ∨ c.unjudged = true := by
  simp [ZoneChannel.awaitsJudgement]

theorem endsWithFrame_eq (c : ZoneChannel) : c.endsWithFrame = true ↔ c.window = wholeFrame ∨ c.onSlots = wholeFrame := by
  simp [ZoneChannel.endsWithFrame]

/-- When a zone steps down (spec/02 R41, R42). -/
theorem stepDownDue_eq (s : State) (z : ZoneId) :
    stepDownDue s z = true ↔
      ((s.level z).value = 4 ∨ (s.level z).value = 5) ∧ 0 < s.stepDownTime ∧ s.stepDownTime ≤ (s.zone z).minutes := by
  simp [stepDownDue, highLevel, minutesReached, and_assoc]

/-- The end of a carried window touches its mark alone. -/
theorem closeWindow_carried (c : ZoneChannel) (h : c.carried = true) : closeWindow c = { c with carried := false } := by
  simp [closeWindow, h]

/-- The end of the present frame's window turns the gate off but for one of the whole frame. -/
theorem closeWindow_present (c : ZoneChannel) (h : c.carried = false) :
    closeWindow c = { c with gate := c.gate && decide (c.window = wholeFrame), unjudged := false } := by
  simp [closeWindow, h]

/-! ## What falls together (spec/01 R7, spec/03 R51, spec/05 R103) -/

theorem ventOver_iff (p : Pneumatic) (o : VentOwner) : p.ventOver o = true ↔ ∃ v ∈ p.vents, v.owner = o ∧ v.left = 0 := by
  simp [Pneumatic.ventOver]

theorem leaks_iff (target p0 m : Nat) : leaks target p0 m = true ↔ p0 + 20 ≤ target ∧ m < p0 + 20 := by
  simp [leaks]

theorem driven_iff (c : FanChannel) : c.driven = true ↔ 1 ≤ c.granted ∧ c.restarted = false := by
  simp [FanChannel.driven]

/-- All that a changed setpoint of a served cell keeps of its fill: nothing, or what a fault is judged by. -/
theorem cutShort_cases (x : Seat) (c : HoldCell) (s : State) :
    cutShort x c s = s ∨ ∃ h p0, s.pneu.holder = some h ∧ h.entry.requester = .support x ∧ h.p0 = some p0 ∧
      cutShort x c s =
        s.modRegulator x (Regulator.keepCut c ⟨h.entry.target, p0, decide (h.riseTimer = some 0)⟩) := by
  unfold cutShort State.heldBy
  split
  · rename_i h hh
    split at hh
    · rename_i k hk
      split at hh
      · rename_i hr
        cases hh
        split
        · rename_i p0 hp
          have e : (h.riseTimer == some 0) = decide (h.riseTimer = some 0) := by rw [Bool.eq_iff_iff]; simp
          exact .inr ⟨h, p0, hk, hr, hp, by rw [e]⟩
        · exact .inl rfl
      · cases hh
    · cases hh
  · exact .inl rfl

theorem cutShort_pneu (x : Seat) (c : HoldCell) (s : State) : (cutShort x c s).pneu = s.pneu := by
  obtain h | ⟨_, _, _, _, _, h⟩ := cutShort_cases x c s <;> rw [h] <;> rfl

/-- The fill kept for a cell is the first one that the moment has ended, and the other cells' are as they were. -/
theorem keepCut_cuts (c d : HoldCell) (k : CutFill) (r : Regulator) :
    (r.keepCut c k).cuts.get d = if d = c then some ((r.cuts.get c).getD k) else r.cuts.get d := by
  by_cases h : d = c
  · subst h
    simp [Regulator.keepCut]
  · simp [Regulator.keepCut, h]

/-- With no ended fill kept, the rise window's end and a sample find nothing to fault. -/
@[simp] theorem leakCut_of_none (x : Seat) (s : State) (h : (s.regulator x).cuts = Four.all none) : leakCut x s = s := by
  have e (c : HoldCell) : leakCell x s c = s := by simp [leakCell, h]
  simp [leakCut, holdCells, e]

@[simp] theorem burstCut_of_none (x : Seat) (b : CellSet) (s : State) (h : (s.regulator x).cuts = Four.all none) :
    burstCut x b s = s := by
  have e (c : HoldCell) : burstCell x b s c = s := by simp [burstCell, h]
  simp [burstCut, holdCells, e]

/-! ## The pump permission (spec/05 R97, R107) -/

theorem maySelect_iff (s : State) :
    s.maySelect = true ↔ s.pneu.holder = none ∧ s.budget.result.permitted = true ∧ s.releases ≠ .shut := by
  simp [State.maySelect, and_assoc]

/-- A shut arbiter selects at no event. -/
theorem maySelect_shut (s : State) (h : s.releases = .shut) : s.maySelect = false := by
  simp [State.maySelect, h]

/-- A pass that does not permit the pump suspends the grant that is held. -/
theorem takePermission_refused (s : State) (h : s.budget.result.permitted = false) :
    takePermission s =
      match s.pneu.holder with
      | none => s
      | some g => suspend g s := by
  unfold takePermission
  rw [if_neg (by simp [h])]
  cases s.pneu.holder <;> rfl

/-! ## The overdraw check beside a CLEAR DIAGNOSTICS (spec/04 R67) -/

/-- With no derate step kept, a scan finds the run and the peak as they stand. -/
@[simp] theorem runFound_of_none (b : Budget) (h : b.stepPeak = none) : b.runFound = b.overdrawRun := by
  simp [Budget.runFound, h]

@[simp] theorem peakFound_of_none (b : Budget) (h : b.stepPeak = none) : b.peakFound = b.peak := by
  simp [Budget.peakFound, h]

/-- A step that is kept is due at the next scan, by its peak. -/
theorem found_of_some (b : Budget) (p : Nat) (h : b.stepPeak = some p) : b.runFound = 2 ∧ b.peakFound = p := by
  simp [Budget.runFound, Budget.peakFound, h]

/-! ## The bus-low timer (spec/09 R177) -/

theorem lowOver_iff (b : BusRecord) : b.lowOver = true ↔ ∃ l, b.low = some l ∧ l.limit ≤ l.time := by
  unfold BusRecord.lowOver
  split
  · rename_i l h
    simp [h]
  · rename_i h
    simp [h]

end Sys2Proof.Machine
end

