-- ==== Sys2Proof/Laws/Stirs.lean ====
section
/-! SUPPORT. What an allocation pass, the pneumatic controller, the cursors and the regulators can do to the state, said once:
the updates they are made of, one lemma per shared operation, and the bystander that all of them leave as it was. -/
namespace Sys2Proof.Machine

/-- The kinds that a pass and the reports it leads to may raise. -/
def NoticeKind.isReported : NoticeKind → Bool
  | .airFault | .storeError | .programEnd | .budgetLimited => true
  | .retention | .supply | .overdraw | .lease | .heatFault | .fanFault | .changed | .stepDown | .occupancy => false

/-- `t` comes of `s` by updates of the kinds that a pass and the reports it leads to make; `P` holds of the seats whose cursors
may change. -/
inductive Stirs (P : Seat → Prop) : State → State → Prop
  /-- Nothing happens. -/
  | same (s : State) : Stirs P s s
  /-- The pneumatic controller changes but for its manifold readings. -/
  | air {s t : State} (h : Stirs P s t) (f : Pneumatic → Pneumatic) (hf : (f t.pneu).manifold = t.pneu.manifold) :
      Stirs P s (t.modPneu f)
  /-- Reports are made or taken. -/
  | reports {s t : State} (h : Stirs P s t) (l : List Report) : Stirs P s { t with reports := l }
  /-- The releases of the moment select, or do not. -/
  | releases {s t : State} (h : Stirs P s t) (r : Releases) : Stirs P s { t with releases := r }
  /-- A cursor changes but for its intensity, speed and origin. -/
  | cursor {s t : State} (h : Stirs P s t) (x : Seat) (hp : P x) (f : Cursor → Cursor)
      (hf : (f (t.cursor x)).intensity = (t.cursor x).intensity ∧ (f (t.cursor x)).speed = (t.cursor x).speed ∧
        (f (t.cursor x)).origin = (t.cursor x).origin) : Stirs P s (t.modCursor x f)
  /-- A regulator changes but for its refresh timer. -/
  | regulator {s t : State} (h : Stirs P s t) (x : Seat) (f : Regulator → Regulator)
      (hf : (f (t.regulator x)).refresh = (t.regulator x).refresh) : Stirs P s (t.modRegulator x f)
  /-- A setpoint becomes 0 with origin DEVICE (spec/08 R164). -/
  | zeroSetpoint {s t : State} (h : Stirs P s t) (x : Seat) (c : HoldCell) :
      Stirs P s (t.setSetpoint x c { value := 0, origin := .device })
  /-- An underfill count rises (spec/01 R16). -/
  | underfill {s t : State} (h : Stirs P s t) (x : Seat) : Stirs P s (countUnderfill x t)
  /-- A raise reaches a master. -/
  | raised {s t : State} (h : Stirs P s t) (n : Notice) (reached : Bool) (m : Master) (hn : n.kind.isReported = true) :
      Stirs P s (t.deliver n reached m)
  /-- A pass at the allocator, the heating controller and the fan controller. -/
  | pass {s t : State} (h : Stirs P s t) : Stirs P s (passCore t)
  /-- A checked read of the store. -/
  | read {s t : State} (h : Stirs P s t) (i : StepIndex) : Stirs P s (readRecord i t)

theorem Stirs.trans {P : Seat → Prop} {s t u : State} (h : Stirs P s t) (k : Stirs P t u) : Stirs P s u := by
  induction k with
  | same => exact h
  | air _ f hf ih => exact .air ih f hf
  | reports _ l ih => exact .reports ih l
  | releases _ r ih => exact .releases ih r
  | cursor _ x hp f hf ih => exact .cursor ih x hp f hf
  | regulator _ x f hf ih => exact .regulator ih x f hf
  | zeroSetpoint _ x c ih => exact .zeroSetpoint ih x c
  | underfill _ x ih => exact .underfill ih x
  | raised _ n reached m hn ih => exact .raised ih n reached m hn
  | pass _ ih => exact .pass ih
  | read _ i ih => exact .read ih i

section
variable {P : Seat → Prop} {s t : State} (h : Stirs P s t)
include h

theorem stirs_report (r : Report) : Stirs P s (t.report r) := .reports h _

theorem stirs_setService (x : Seat) (v : Service) : Stirs P s (t.setService x v) := .regulator h x _ rfl

theorem stirs_setNeed (x : Seat) (c : HoldCell) (n : Need) : Stirs P s (t.setNeed x c n) := .regulator h x _ rfl

theorem stirs_raiseSeat (k : NoticeKind) (x : Seat) (d : Detail) (e : Option Master) (hk : k.isReported = true) :
    Stirs P s (raiseSeat k x d e t) := .raised (.raised (.raised h _ _ _ hk) _ _ _ hk) _ _ _ hk

/-! ## The pneumatic controller -/

theorem stirs_orderSelector (p : SelPos) : Stirs P s (orderSelector p t) := by
  unfold orderSelector
  split
  · exact h
  · exact .air h _ rfl

theorem stirs_startVent (o : VentOwner) (c : CellSet) : Stirs P s (startVent o c t) := .air h _ rfl

theorem stirs_takeP0 (g : Holder) : Stirs P s (takeP0 g t) := .air h _ rfl

theorem stirs_startCompressor : Stirs P s (startCompressor t) := .air h _ rfl

omit h in
theorem countGrant_manifold (n : Nat) (e : Entry) (p : Pneumatic) : (countGrant n e p).manifold = p.manifold := by
  unfold countGrant
  repeat' split
  all_goals rfl

theorem stirs_grantEntry (g : Holder) : Stirs P s (grantEntry g t) := by
  unfold grantEntry
  refine stirs_report (.air h _ ?_) _
  exact countGrant_manifold t.rotationLimit g.entry t.pneu

theorem stirs_endFill (g : Holder) (how : FillEnd) : Stirs P s (endFill g how t) := by
  unfold endFill
  split
  · exact stirs_report (stirs_startVent (.air h _ rfl) _ _) _
  · exact stirs_report (.air h _ rfl) _

theorem stirs_releaseTail : Stirs P s (releaseTail t) := by
  unfold releaseTail
  split <;> split <;> first | exact h | exact .pass h | exact stirs_orderSelector h _ | exact .pass (stirs_orderSelector h _)

theorem stirs_shutAtRelease : Stirs P s (shutAtRelease t) := by
  unfold shutAtRelease
  split
  · exact .releases h _
  · exact h

theorem stirs_markSelected : Stirs P s (markSelected t) := by
  unfold markSelected
  split
  · exact .releases h _
  · exact h

theorem stirs_atRelease (b : Bool) : Stirs P s (if b then shutAtRelease t else t) := by
  split
  · exact stirs_shutAtRelease h
  · exact h

theorem stirs_markedGrant (b : Bool) (g : Holder) : Stirs P s (grantEntry g (if b then markSelected t else t)) := by
  split
  · exact stirs_grantEntry (stirs_markSelected h) g
  · exact stirs_grantEntry h g

theorem stirs_arbitrate (n : Nat) (b : Bool) : Stirs P s (arbitrate n b t) := by
  induction n generalizing t b with
  | zero => exact h
  | succ n ih =>
    simp only [arbitrate]
    replace h := stirs_atRelease h b
    generalize (if b = true then shutAtRelease t else t) = t at h
    split
    · split
      · split
        · split
          · exact ih (stirs_endFill (stirs_takeP0 (stirs_markedGrant h _ _) _) _ _) _
          · exact stirs_startCompressor (stirs_takeP0 (stirs_markedGrant h _ _) _)
        · exact stirs_orderSelector (stirs_markedGrant h _ _) _
      · split
        · exact stirs_releaseTail h
        · exact h
    · split
      · exact stirs_releaseTail h
      · exact h

theorem stirs_select : Stirs P s (select t) := stirs_arbitrate h _ _

theorem stirs_release : Stirs P s (release t) := stirs_arbitrate h _ _

theorem stirs_finishFill (g : Holder) (how : FillEnd) : Stirs P s (finishFill g how t) := stirs_release (stirs_endFill h g how)

theorem stirs_beginFilling (g : Holder) : Stirs P s (beginFilling g t) := by
  unfold beginFilling
  split
  · exact stirs_finishFill (stirs_takeP0 h g) g _
  · exact stirs_startCompressor (stirs_takeP0 h g)

theorem stirs_suspend (g : Holder) : Stirs P s (suspend g t) := by
  unfold suspend
  split
  · exact .pass (stirs_report (.air h _ rfl) _)
  · exact stirs_report (.air h _ rfl) _

theorem stirs_takePermission : Stirs P s (takePermission t) := by
  unfold takePermission
  split
  · exact stirs_select h
  · split
    · exact stirs_suspend h _
    · exact h

/-- An allocation pass with everything it starts. -/
theorem stirs_runPass : Stirs P s (runPass t) := stirs_takePermission (.pass h)

theorem stirs_requestFill (r : Requester) (c : CellSet) (g : Nat) : Stirs P s (requestFill r c g t) := by
  unfold requestFill
  split
  · exact stirs_report h _
  · split
    · exact stirs_select (.air h _ rfl)
    · split
      · split
        · exact stirs_runPass (stirs_release (.air h _ rfl))
        · exact stirs_release (.air h _ rfl)
      · split
        · exact stirs_runPass (.air h _ rfl)
        · exact stirs_select (.air h _ rfl)

theorem stirs_withdraw (r : Requester) : Stirs P s (withdraw r t) := by
  simp only [withdraw]
  split
  · split
    · exact stirs_runPass (.air h _ rfl)
    · exact .air h _ rfl
  · split
    · exact stirs_finishFill h _ _
    · exact h

/-- What a vent request does before its report. -/
theorem stirs_ventBody (o : VentOwner) (c : CellSet) :
    Stirs P s (if t.pneu.vents? o then select (startVent o c t) else startVent o c t) := by
  split
  · exact stirs_select (stirs_startVent h _ _)
  · exact stirs_startVent h _ _

theorem stirs_requestVent (r : Requester) (c : CellSet) : Stirs P s (requestVent r c t) := by
  simp only [requestVent]
  split
  · split
    · exact stirs_report (stirs_ventBody (stirs_finishFill h _ _) _ _) _
    · exact stirs_report (stirs_ventBody h _ _) _
  · split
    · exact stirs_ventBody (stirs_finishFill h _ _) _ _
    · exact stirs_ventBody h _ _

theorem stirs_cancelVent (r : Requester) : Stirs P s (cancelVent r t) := by
  unfold cancelVent
  split
  · exact stirs_select (.air h _ rfl)
  · exact h

/-! ## The cursors -/

theorem stirs_withdrawCursor (x : Seat) : Stirs P s (withdrawCursor x t) := by
  unfold withdrawCursor
  split
  · exact stirs_withdraw h _
  · exact h

theorem stirs_enterEnding (x : Seat) (hp : P x) (c : EndCause) : Stirs P s (enterEnding x c t) :=
  stirs_requestVent (.cursor (stirs_withdrawCursor h x) x hp _ ⟨rfl, rfl, rfl⟩) _ _

theorem stirs_enterFault (x : Seat) (hp : P x) (c : FaultCode) : Stirs P s (enterFault x c t) :=
  stirs_raiseSeat (stirs_requestVent (.cursor (stirs_withdrawCursor h x) x hp _ ⟨rfl, rfl, rfl⟩) _ _) _ _ _ _ rfl

theorem stirs_beginVent (x : Seat) (hp : P x) (c : CellSet) : Stirs P s (beginVent x c t) :=
  stirs_requestVent (.cursor h x hp _ ⟨rfl, rfl, rfl⟩) _ _

theorem stirs_beginFillWait (x : Seat) (hp : P x) (c : CellSet) : Stirs P s (beginFillWait x c t) :=
  stirs_requestFill (.cursor h x hp _ ⟨rfl, rfl, rfl⟩) _ _ _

theorem stirs_beginDwell (x : Seat) (hp : P x) : Stirs P s (beginDwell x t) := .cursor h x hp _ ⟨rfl, rfl, rfl⟩

omit h in
theorem hopAtEntry_keeps (f : StepFields) (c : Cursor) :
    (c.hopAtEntry f).intensity = c.intensity ∧ (c.hopAtEntry f).speed = c.speed ∧ (c.hopAtEntry f).origin = c.origin := by
  unfold Cursor.hopAtEntry
  repeat' split
  all_goals exact ⟨rfl, rfl, rfl⟩

theorem stirs_takeStep (x : Seat) (hp : P x) (i : StepIndex) (f : StepFields) : Stirs P s (takeStep x i f t) :=
  .cursor (.read h i) x hp _ (hopAtEntry_keeps f _)

theorem stirs_enterStep (n : Nat) (x : Seat) (hp : P x) (i : StepIndex) : Stirs P s (enterStep n x i t) := by
  induction n generalizing t i with
  | zero => exact h
  | succ n ih =>
    simp only [enterStep]
    split
    · exact stirs_enterFault (.cursor (.read h i) x hp _ ⟨rfl, rfl, rfl⟩) x hp _
    · rename_i f hf
      have k := stirs_takeStep h x hp i f
      split
      · exact stirs_beginVent k x hp _
      · split
        · exact stirs_beginFillWait k x hp _
        · split
          · exact stirs_beginDwell k x hp
          · split
            · exact stirs_enterFault k x hp _
            · split
              · exact ih (.cursor k x hp _ ⟨rfl, rfl, rfl⟩) _
              · exact stirs_enterEnding (.cursor k x hp _ ⟨rfl, rfl, rfl⟩) x hp _
              · exact stirs_enterFault (.cursor k x hp _ ⟨rfl, rfl, rfl⟩) x hp _

theorem stirs_advanceCursor (x : Seat) (hp : P x) : Stirs P s (advanceCursor x t) := by
  simp only [advanceCursor]
  split
  · exact stirs_enterStep (.cursor h x hp _ ⟨rfl, rfl, rfl⟩) _ x hp _
  · exact stirs_enterEnding (.cursor h x hp _ ⟨rfl, rfl, rfl⟩) x hp _
  · exact stirs_enterFault (.cursor h x hp _ ⟨rfl, rfl, rfl⟩) x hp _

theorem stirs_dwellOrAdvance (x : Seat) (hp : P x) : Stirs P s (dwellOrAdvance x t) := by
  unfold dwellOrAdvance
  split
  · exact stirs_beginDwell h x hp
  · exact stirs_advanceCursor h x hp

theorem stirs_cursorVentComplete (x : Seat) (hp : P x) : Stirs P s (cursorVentComplete x t) := by
  unfold cursorVentComplete ventPhaseDone
  split
  · split
    · split
      · split
        · exact stirs_beginFillWait h x hp _
        · exact stirs_dwellOrAdvance h x hp
      · exact stirs_dwellOrAdvance h x hp
    · exact h
  · exact stirs_raiseSeat (.cursor h x hp _ ⟨rfl, rfl, rfl⟩) _ _ _ _ rfl
  all_goals exact h

theorem stirs_cursorGranted (x : Seat) (hp : P x) : Stirs P s (cursorGranted x t) := by
  unfold cursorGranted
  split
  · exact .cursor h x hp _ ⟨rfl, rfl, rfl⟩
  · exact h

theorem stirs_cursorFilled (x : Seat) (hp : P x) (b : Bool) : Stirs P s (cursorFilled x b t) := by
  simp only [cursorFilled]
  split
  · split
    · split
      · exact stirs_enterFault (.cursor h x hp _ ⟨rfl, rfl, rfl⟩) x hp _
      · exact stirs_advanceCursor (.cursor h x hp _ ⟨rfl, rfl, rfl⟩) x hp
    · exact stirs_dwellOrAdvance h x hp
  · exact stirs_dwellOrAdvance (.cursor h x hp _ ⟨rfl, rfl, rfl⟩) x hp

theorem stirs_cursorOutcome (x : Seat) (hp : P x) (how : FillEnd) : Stirs P s (cursorOutcome x how t) := by
  unfold cursorOutcome
  split
  · split
    · exact stirs_cursorFilled h x hp _
    · exact stirs_cursorFilled (.underfill h x) x hp _
    · exact stirs_enterFault h x hp _
    · exact stirs_enterFault h x hp _
    · exact .cursor h x hp _ ⟨rfl, rfl, rfl⟩
    · exact h
  · exact h

/-! ## The regulators -/

theorem stirs_selectCell (x : Seat) : Stirs P s (selectCell x t) := by
  unfold selectCell
  split
  · split
    · exact stirs_requestFill (stirs_setService h x _) _ _ _
    · exact h
  · exact h

theorem stirs_joinVent (x : Seat) (c : HoldCell) : Stirs P s (joinVent x c t) := stirs_requestVent (stirs_setNeed h x c _) _ _

theorem stirs_cutShort (x : Seat) (c : HoldCell) : Stirs P s (cutShort x c t) := by
  unfold cutShort
  split
  · split
    · exact .regulator h x _ rfl
    · exact h
  · exact h

theorem stirs_raiseCell (x : Seat) (c : HoldCell) : Stirs P s (raiseCell x c t) := by
  unfold raiseCell
  split
  · exact stirs_selectCell (stirs_setNeed h x c _) x
  · split
    · exact stirs_requestFill (stirs_setService (stirs_cutShort h x c) x _) _ _ _
    · exact h
  · exact h

theorem stirs_lowerCell (x : Seat) (c : HoldCell) : Stirs P s (lowerCell x c t) := by
  unfold lowerCell
  split
  · exact h
  all_goals
    split
    · exact stirs_selectCell (stirs_joinVent (stirs_setService (stirs_withdraw (stirs_cutShort h x c) _) x _) x c) x
    · exact stirs_joinVent h x c

/-- A setpoint handed to its regulator. -/
theorem stirs_handSetpoint (x : Seat) (c : HoldCell) (old new : Nat) : Stirs P s (handSetpoint x c old new t) := by
  unfold handSetpoint handEmpty
  split
  · split
    · exact h
    · exact stirs_setNeed h x c _
  · split
    · exact stirs_raiseCell h x c
    · split
      · exact stirs_lowerCell h x c
      · exact h

theorem stirs_faultCell (x : Seat) (c : HoldCell) (o : CellOutcome) : Stirs P s (faultCell x c o t) :=
  stirs_raiseSeat (stirs_joinVent (.regulator (.zeroSetpoint h x c) x _ rfl) x c) _ _ _ _ rfl

theorem stirs_faultCut (x : Seat) (c : HoldCell) (o : CellOutcome) : Stirs P s (faultCut x c o t) := by
  have k : Stirs P s (t.modRegulator x fun r => { r with cuts := r.cuts.set c none }) := .regulator h x _ rfl
  unfold faultCut
  split
  · exact stirs_selectCell (stirs_faultCell (stirs_setService (stirs_withdraw k _) x _) x c o) x
  · exact stirs_selectCell (stirs_faultCell k x c o) x

omit h in
theorem stirs_foldl (f : State → HoldCell → State) (hf : ∀ u c, Stirs P s u → Stirs P s (f u c)) (l : List HoldCell)
    (u : State) (hu : Stirs P s u) : Stirs P s (l.foldl f u) := by
  induction l generalizing u with
  | nil => exact hu
  | cons c l ih => exact ih _ (hf _ _ hu)

/-- A rise window's end at the fills that the moment has ended. -/
theorem stirs_leakCut (x : Seat) : Stirs P s (leakCut x t) := by
  refine stirs_foldl _ (fun u c hu => ?_) _ _ h
  unfold leakCell
  split
  · split
    · exact stirs_faultCut hu x _ _
    · exact hu
  · exact hu

/-- A sample at the fills that the moment has ended. -/
theorem stirs_burstCut (x : Seat) (judged : CellSet) : Stirs P s (burstCut x judged t) := by
  refine stirs_foldl _ (fun u c hu => ?_) _ _ h
  unfold burstCell
  split
  · split
    · exact stirs_faultCut hu x _ _
    · exact hu
  · exact hu

theorem stirs_supportGranted (x : Seat) : Stirs P s (supportGranted x t) := by
  unfold supportGranted
  split
  · exact stirs_setService h x _
  all_goals exact h

theorem stirs_supportOutcome (x : Seat) (how : FillEnd) : Stirs P s (supportOutcome x how t) := by
  unfold supportOutcome supportSuspended
  split
  · exact h
  · split
    · exact stirs_selectCell (stirs_setService (stirs_setNeed h x _ _) x _) x
    · exact stirs_selectCell (stirs_setService (stirs_setNeed h x _ _) x _) x
    · exact stirs_selectCell (stirs_faultCell (stirs_setService h x _) x _ _) x
    · exact stirs_selectCell (stirs_faultCell (stirs_setService h x _) x _ _) x
    · split
      · exact stirs_setService h x _
      all_goals exact h
    · exact h

theorem stirs_supportVentComplete (x : Seat) : Stirs P s (supportVentComplete x t) := by
  unfold supportVentComplete
  split
  · exact h
  · exact stirs_selectCell (.regulator h x _ rfl) x

theorem stirs_emptyRegulator (x : Seat) : Stirs P s (emptyRegulator x t) := by
  unfold emptyRegulator
  refine stirs_requestVent (.regulator ?_ x _ rfl) _ _
  split
  · exact h
  · exact stirs_setService (stirs_withdraw h _) x _

/-! ## Reports -/

/-- The seats whose cursors a report may change: the one it is made to, while that cursor runs or ends. -/
def Report.moves (s : State) (r : Report) (x : Seat) : Prop :=
  (r = .granted (.massage x) ∨ (∃ how, r = .ended (.massage x) how) ∨ r = .ventComplete (.massage x)) ∧
  ((s.cursor x).state = .running ∨ (s.cursor x).state = .ending)

omit h in
/-- A report taken by its requester. -/
theorem stirs_takeReport (r : Report) (s : State) : Stirs (r.moves s) s (takeReport r s) := by
  unfold takeReport
  split
  · rename_i x
    unfold cursorGranted
    split
    · rename_i hc
      exact .cursor (.same s) x ⟨.inl rfl, .inl hc.1⟩ _ ⟨rfl, rfl, rfl⟩
    · exact .same s
  · exact stirs_supportGranted (.same s) _
  · rename_i x how
    by_cases hc : (s.cursor x).fillPhase = true
    · refine stirs_cursorOutcome (.same s) x ⟨.inr (.inl ⟨how, rfl⟩), .inl ?_⟩ how
      simp only [Cursor.fillPhase, Bool.and_eq_true, beq_iff_eq] at hc
      exact hc.1
    · simp only [cursorOutcome, if_neg hc]
      exact .same s
  · exact stirs_supportOutcome (.same s) _ _
  · rename_i x
    cases hc : (s.cursor x).state with
    | running => exact stirs_cursorVentComplete (.same s) x ⟨.inr (.inr rfl), .inl hc⟩
    | ending => exact stirs_cursorVentComplete (.same s) x ⟨.inr (.inr rfl), .inr hc⟩
    | idle => simp only [cursorVentComplete, hc]; exact .same s
    | paused => simp only [cursorVentComplete, hc]; exact .same s
    | fault => simp only [cursorVentComplete, hc]; exact .same s
  · exact stirs_supportVentComplete (.same s) _

/-- More cursors may change where fewer may. -/
theorem Stirs.weaken {Q : Seat → Prop} (hq : ∀ x, P x → Q x) : Stirs Q s t := by
  induction h with
  | same => exact .same _
  | air _ f hf ih => exact .air ih f hf
  | reports _ l ih => exact .reports ih l
  | releases _ r ih => exact .releases ih r
  | cursor _ x hp f hf ih => exact .cursor ih x (hq x hp) f hf
  | regulator _ x f hf ih => exact .regulator ih x f hf
  | zeroSetpoint _ x c ih => exact .zeroSetpoint ih x c
  | underfill _ x ih => exact .underfill ih x
  | raised _ n reached m hn ih => exact .raised ih n reached m hn
  | pass _ ih => exact .pass ih
  | read _ i ih => exact .read ih i

omit h in
theorem deliver_cursor (s : State) (n : Notice) (reached : Bool) (m : Master) (x : Seat) :
    (s.deliver n reached m).cursor x = s.cursor x := by
  unfold State.deliver
  split <;> rfl

omit h in
/-- A pass leaves every cursor. -/
theorem passCore_cursor (s : State) (x : Seat) : (passCore s).cursor x = s.cursor x := by
  show (storeResult (allocate s.passInput) s).cursor x = s.cursor x
  unfold storeResult noteLimited raiseDevice
  split
  · exact deliver_cursor _ _ _ _ _
  · rfl

omit h in
/-- A checked read leaves every cursor. -/
theorem readRecord_cursor (s : State) (i : StepIndex) (x : Seat) : (readRecord i s).cursor x = s.cursor x := by
  unfold readRecord
  split
  · unfold correctRecord raiseDevice
    split
    · rfl
    · exact deliver_cursor _ _ _ _ _
  · exact deliver_cursor _ _ _ _ _
  all_goals rfl

/-- A cursor that may not change has not changed. -/
theorem Stirs.cursor_still (x : Seat) (hx : ¬ P x) : t.cursor x = s.cursor x := by
  induction h with
  | same => rfl
  | air _ f hf ih => exact ih
  | reports _ l ih => exact ih
  | releases _ r ih => exact ih
  | cursor _ y hp f hf ih =>
    have : x ≠ y := fun e => hx (e ▸ hp)
    rw [State.cursor_modCursor_other _ _ _ _ this, ih]
  | regulator _ x f hf ih => exact ih
  | zeroSetpoint _ x c ih => exact ih
  | underfill _ x ih => exact ih
  | raised _ n reached m _ ih =>
    rw [deliver_cursor]
    exact ih
  | pass _ ih =>
    rw [passCore_cursor]
    exact ih
  | read _ i ih =>
    rw [readRecord_cursor]
    exact ih

omit h in
/-- The reports of an event with all they lead to. -/
theorem stirs_settle (n : Nat) (s : State) : Stirs (fun _ => True) s (settle n s) := by
  induction n generalizing s with
  | zero => exact .same s
  | succ n ih =>
    unfold settle
    split
    · exact .same s
    · rename_i r rest _
      exact (Stirs.reports (.same s) rest).trans
        (((stirs_takeReport r { s with reports := rest }).weaken fun _ _ => trivial).trans (ih _))

omit h in
/-- The reports of an event leave a cursor alone that is IDLE, PAUSED or in FAULT (spec/07 R134). -/
theorem settle_cursor_still (n : Nat) (s : State) (x : Seat) (hr : (s.cursor x).state ≠ .running)
    (he : (s.cursor x).state ≠ .ending) : (settle n s).cursor x = s.cursor x := by
  induction n generalizing s with
  | zero => rfl
  | succ n ih =>
    unfold settle
    split
    · rfl
    · rename_i r rest _
      have k : (takeReport r { s with reports := rest }).cursor x = s.cursor x :=
        (stirs_takeReport r { s with reports := rest }).cursor_still x fun hm => hm.2.elim hr he
      rw [ih _ (k ▸ hr) (k ▸ he), k]

end

/-! ## The bystander of a stirred state -/

theorem idled_eq (c d : Cursor) (h : d.intensity = c.intensity ∧ d.speed = c.speed ∧ d.origin = c.origin) :
    d.idled = c.idled := by simp [Cursor.idled, h]

section
variable (s : State)

theorem bystander_modPneu (f : Pneumatic → Pneumatic) (h : (f s.pneu).manifold = s.pneu.manifold) :
    (s.modPneu f).bystander = s.bystander := by simp [State.bystander, State.modPneu, h]

theorem bystander_modCursor (x : Seat) (f : Cursor → Cursor)
    (h : (f (s.cursor x)).intensity = (s.cursor x).intensity ∧ (f (s.cursor x)).speed = (s.cursor x).speed ∧
      (f (s.cursor x)).origin = (s.cursor x).origin) : (s.modCursor x f).bystander = s.bystander := by
  have e := idled_eq _ _ h
  cases x <;> simp [State.bystander, State.modCursor, State.cursor, PerSeat.set, PerSeat.get] at * <;> exact e

theorem bystander_modRegulator (x : Seat) (f : Regulator → Regulator)
    (h : (f (s.regulator x)).refresh = (s.regulator x).refresh) : (s.modRegulator x f).bystander = s.bystander := by
  have e : (f (s.regulator x)).cleared = (s.regulator x).cleared := by simp [Regulator.cleared, h]
  cases x <;> simp [State.bystander, State.modRegulator, State.regulator, PerSeat.set, PerSeat.get] at * <;> exact e

theorem bystander_modSeat (x : Seat) (f : SeatRecord → SeatRecord) (h : ∀ r, (f r).unreported = r.unreported) :
    (s.modSeat x f).bystander = s.bystander := by
  cases x <;> simp [State.bystander, State.modSeat, State.seat, PerSeat.set, PerSeat.get, h]

theorem bystander_modBudget (f : Budget → Budget) (h : ∀ b, (f b).unpassed = b.unpassed) :
    (s.modBudget f).bystander = s.bystander := by simp [State.bystander, State.modBudget, h]

theorem bystander_modNotices (m : Master) (f : NoticeBox → NoticeBox) (h : ∀ b, (f b).maskOnly = b.maskOnly) :
    (s.modNotices m f).bystander = s.bystander := by
  cases m <;> simp [State.bystander, State.modNotices, PerMaster.set, PerMaster.get, h]

theorem bystander_deliver (n : Notice) (reached : Bool) (m : Master) : (s.deliver n reached m).bystander = s.bystander := by
  unfold State.deliver
  split
  · exact bystander_modNotices s m _ fun _ => rfl
  · rfl

theorem ungranted_takeGrant (g : Nat) (c : ZoneChannel) : (takeGrant g c).ungranted = c.ungranted := by
  unfold takeGrant
  split <;> rfl

theorem ungranted_setGranted (g : Nat) (c : FanChannel) : (setGranted g c).ungranted = c.ungranted := rfl

theorem bystander_handOff (a : Allocation) : (handOff a s).bystander = s.bystander := by
  simp [State.bystander, handOff, takeGrants, takeFanGrants, Five.map, Pair.map, ungranted_takeGrant, ungranted_setGranted]

theorem bystander_storeResult (a : Allocation) : (storeResult a s).bystander = s.bystander := by
  unfold storeResult noteLimited raiseDevice
  split
  · rw [bystander_deliver]
    exact bystander_modBudget s _ fun _ => rfl
  · exact bystander_modBudget s _ fun _ => rfl

theorem bystander_passCore : (passCore s).bystander = s.bystander := by
  rw [passCore, bystander_handOff, bystander_storeResult]

theorem bystander_readRecord (i : StepIndex) : (readRecord i s).bystander = s.bystander := by
  unfold readRecord
  split
  · unfold correctRecord raiseDevice
    split
    · rfl
    · rw [bystander_deliver]; rfl
  · unfold failRead raiseDevice
    rw [bystander_deliver]; rfl
  · rfl
  · rfl

end

/-- A pass and the reports it leads to keep the bystander. -/
theorem Stirs.bystander {P : Seat → Prop} {s t : State} (h : Stirs P s t) : t.bystander = s.bystander := by
  induction h with
  | same => rfl
  | air _ f hf ih => rw [bystander_modPneu _ f hf, ih]
  | reports _ l ih => exact ih
  | releases _ r ih => exact ih
  | cursor _ x _ f hf ih => rw [bystander_modCursor _ x f hf, ih]
  | regulator _ x f hf ih => rw [bystander_modRegulator _ x f hf, ih]
  | zeroSetpoint _ x c ih =>
    rw [← ih]
    exact bystander_modSeat _ x _ fun _ => rfl
  | underfill _ x ih =>
    rw [← ih]
    exact bystander_modSeat _ x _ fun _ => rfl
  | raised _ n reached m _ ih => rw [bystander_deliver, ih]
  | pass _ ih => rw [bystander_passCore, ih]
  | read _ i ih => rw [bystander_readRecord, ih]

theorem bystander_runPass (s : State) : (runPass s).bystander = s.bystander := (stirs_runPass (P := fun _ => True) (.same s)).bystander

theorem bystander_settle (n : Nat) (s : State) : (settle n s).bystander = s.bystander := (stirs_settle n s).bystander

/-! ## What a bystander determines -/

section
variable {s t : State} (h : t.bystander = s.bystander)
include h

theorem powered_of_bystander : t.powered = s.powered := by simpa [State.bystander] using congrArg (fun u : State => u.powered) h
theorem scanned_of_bystander : t.scanned = s.scanned := by simpa [State.bystander] using congrArg (fun u : State => u.scanned) h
theorem ads_of_bystander : t.ads = s.ads := by simpa [State.bystander] using congrArg (fun u : State => u.ads) h
theorem bus_of_bystander : t.bus = s.bus := by simpa [State.bystander] using congrArg (fun u : State => u.bus) h
theorem results_of_bystander : t.results = s.results := by simpa [State.bystander] using congrArg (fun u : State => u.results) h
theorem access_of_bystander : t.access = s.access := by simpa [State.bystander] using congrArg (fun u : State => u.access) h
theorem params_of_bystander : t.params = s.params := by simpa [State.bystander] using congrArg (fun u : State => u.params) h
theorem supply_of_bystander : t.supply = s.supply := by simpa [State.bystander] using congrArg (fun u : State => u.supply) h
theorem directory_of_bystander : t.directory = s.directory := by simpa [State.bystander] using congrArg (fun u : State => u.directory) h
theorem pending_of_bystander : t.pending = s.pending := by simpa [State.bystander] using congrArg (fun u : State => u.pending) h

theorem param_of_bystander (n : Nat) : t.param n = s.param n := by simp [State.param, params_of_bystander h]

theorem unreported_of_bystander (x : Seat) : (t.seat x).unreported = (s.seat x).unreported := by
  have e := congrArg (fun u : State => u.seats.get x) h
  cases x <;> simpa [State.bystander, State.seat, PerSeat.get] using e

theorem occupancy_of_bystander (x : Seat) : (t.seat x).occupancy = (s.seat x).occupancy := by
  simpa [SeatRecord.unreported] using congrArg SeatRecord.occupancy (unreported_of_bystander h x)

theorem active_of_bystander (x : Seat) : t.active x = s.active x := by simp [State.active, occupancy_of_bystander h x]

theorem level_of_bystander (z : ZoneId) : t.level z = s.level z := by
  have e := congrArg (fun r : SeatRecord => r.levels.get z.part) (unreported_of_bystander h z.seat)
  simpa [SeatRecord.unreported, State.level] using e

theorem fanLevel_of_bystander (f : FanId) : t.fanLevel f = s.fanLevel f := by
  have e := congrArg (fun r : SeatRecord => r.fanLevels.get f.part) (unreported_of_bystander h f.seat)
  simpa [SeatRecord.unreported, State.fanLevel] using e

theorem zone_of_bystander (z : ZoneId) : (t.zone z).ungranted = (s.zone z).ungranted := by
  have e := congrArg (fun u : State => (u.zones.get z.seat).get z.part) h
  obtain ⟨x, p⟩ := z
  cases x <;> simpa [State.bystander, State.zone, PerSeat.get] using e

theorem fan_of_bystander (f : FanId) : (t.fan f).ungranted = (s.fan f).ungranted := by
  have e := congrArg (fun u : State => (u.fans.get f.seat).get f.part) h
  obtain ⟨x, p⟩ := f
  cases x <;> simpa [State.bystander, State.fan, PerSeat.get] using e

theorem budget_of_bystander : t.budget.unpassed = s.budget.unpassed := by
  simpa [State.bystander] using congrArg (fun u : State => u.budget) h

theorem cEff_of_bystander : t.budget.cEff = s.budget.cEff := by
  simpa [Budget.unpassed] using congrArg Budget.cEff (budget_of_bystander h)

theorem mask_of_bystander (m : Master) : (t.notices.get m).mask = (s.notices.get m).mask := by
  have e := congrArg (fun u : State => (u.notices.get m).mask) h
  cases m <;> simpa [State.bystander, PerMaster.get, NoticeBox.maskOnly] using e

theorem cursor_of_bystander (x : Seat) : (t.cursor x).idled = (s.cursor x).idled := by
  have e := congrArg (fun u : State => u.cursors.get x) h
  cases x <;> simpa [State.bystander, State.cursor, PerSeat.get] using e

end

end Sys2Proof.Machine
end

