-- ==== Sys2Proof/Laws/Commands.lean ====
section
/-! SUPPORT. What stands around a command, said once: the taking of its reports, the two forms of a bus row, the addresses and
the codes that name a target. -/
namespace Sys2Proof.Machine

/-! ## Taking a command -/

/-- With no report open there is nothing to settle. -/
theorem settle_nil (n : Nat) (s : State) (h : s.reports = []) : settle n s = s := by
  cases n <;> simp [settle, h]

/-- Between commands, setting the releases to what they are changes nothing. -/
theorem releases_eta (s : State) (h : s.releases = .select) : ({ s with releases := .select } : State) = s := by
  obtain ⟨p, r, m, q⟩ := s
  cases h
  rfl

/-- A part with supply takes a command's effect and settles its reports; where a release of it grants an entry, the part without that
selection is kept beside it. -/
theorem taken_awake (f : State → State) (s : State) (h : s.awake) :
    taken f s = .next
      { runEffect f s with
        releases :=
          if (runEffect f s).releases = .selected then .apart (runEffect f { s with releases := .armed }).toPart
          else .select } := by
  simp [taken, takeEffect, h.1, h.2.2, releases_eta s h.2.2]

/-- A command that makes no report and no selection at a release is its effect. -/
theorem taken_quiet (f : State → State) (s : State) (h : s.awake) (hf : (f s).reports = []) (hr : (f s).releases = .select) :
    taken f s = .next (f s) := by
  rw [taken_awake f s h, runEffect, settle_nil _ _ hf, if_neg (by simp [hr]), releases_eta _ hr]

/-- Without supply nothing is taken. -/
theorem taken_unpowered (f : State → State) (s : State) (h : s.powered = false) : taken f s = .next s := by
  simp [taken, h]

/-- The effect of a command with the arbiter shut. -/
theorem taken_shut (f : State → State) (s : State) (hp : s.powered = true) (h : s.releases = .shut) :
    taken f s = .next { runEffect f s with releases := .shut } := by
  simp [taken, takeEffect, hp, h]

/-- A command of a moment in which a release has granted an entry: the part as it would stand without that selection where a pass of
the command withdraws the permission, and otherwise the part as it stands (spec/05 R107). -/
theorem taken_apart (f : State → State) (p : Part) (s : State) (hp : s.powered = true) (h : s.releases = .apart p) :
    taken f s = .next
      (if withdrawsPump p (runEffect f (s.shutApart p)).toPart then { runEffect f (s.shutApart p) with releases := .select }
      else
        let t := runEffect f { s with releases := .select }
        { t with releases := if t.powered then .apart (runEffect f (s.shutApart p)).toPart else .select }) := by
  simp [taken, takeEffect, hp, h]

/-- What a command leaves of the bystander: that of its effect before its reports. -/
theorem taken_bystander (f : State → State) (s : State) (h : s.awake) :
    ∃ t, taken f s = .next t ∧ t.bystander = (f s).bystander := by
  exact ⟨_, taken_awake f s h, bystander_settle reportBound (f s)⟩

/-- Between commands that fall together with no release, a law of either part is a law of the part. -/
theorem inEither_of_select (P : State → Prop) (s : State) (h : s.releases = .select) : s.inEither P ↔ P s := by
  simp [State.inEither, h]

/-- A law of the part that every effect keeps is kept by a command, of the part as it stands and of the part kept apart. -/
theorem taken_inEither (P : State → Prop) (hp : ∀ s t : State, s.toPart = t.toPart → P s → P t) (f : State → State)
    (hf : ∀ s, P s → P (runEffect f s)) {s t : State} (hs : s.inEither P) (ht : taken f s = .next t) : t.inEither P := by
  by_cases h : s.powered = true
  · simp only [taken, h, if_true, Host.Outcome.next.injEq] at ht
    subst ht
    have same {a b : State} (ha : P a) (e : a.toPart = b.toPart) : P b := hp a b e ha
    have run (r : Releases) : P (runEffect f { s with releases := r }) := hf _ (same hs.1 rfl)
    cases hr : s.releases with
    | shut =>
      simp only [takeEffect, hr]
      exact ⟨same (hf _ hs.1) rfl, by simp⟩
    | apart p =>
      have alone : P (runEffect f (s.shutApart p)) := hf _ (hs.2 p hr)
      simp only [takeEffect, hr]
      split
      · exact ⟨same alone rfl, by simp⟩
      · refine ⟨same (run .select) rfl, fun q hq => ?_⟩
        split at hq
        · cases hq
          exact same alone rfl
        · cases hq
    | select | selected | armed =>
      simp only [takeEffect, hr]
      refine ⟨same (run .select) rfl, fun q hq => ?_⟩
      split at hq
      · cases hq
        exact same (run .armed) rfl
      · cases hq
  · simp only [taken, h] at ht
    cases ht
    exact hs

/-! ## Bus rows -/

theorem writeRow_onBus (f : State → State) (s : State) (h : s.onBus) : writeRow f s = f { s with bus := .idle } := by
  simp [writeRow, h.2]

theorem readRow_onBus (m : Master) (f : State → State × List Byte) (s : State) (h : s.onBus) :
    readRow m f s = respond m (f { s with bus := .idle }) := by
  simp [readRow, h.2]

/-- A read whose owner changes nothing is its response. -/
theorem respond_unchanged (m : Master) (a : List Byte) (s : State) (time : Nat) (h : s.bus.time = time) :
    respond m (s, a) = s.responding m a time := by
  subst h
  rfl

/-- A refused write is its last-result record. -/
theorem recordResult_refuse (m : Master) (code : Byte) (x : Option Seat) (r : ResultCode) (s : State) :
    recordResult m code x (refuse r { s with bus := .idle }) = s.recorded m code x r := rfl

/-! ## Addresses and target codes -/

theorem addressed_addressByte (ads : BitVec 2) (m : Master) (d : Bool) : addressed ads (addressByte ads m d) = some (m, d) := by
  revert ads
  cases m <;> cases d <;> decide

theorem zoneOfCode_zoneNumber (z : ZoneId) : zoneOfCode (byteOf (zoneNumber z)).toNat = some z := by
  obtain ⟨x, p⟩ := z
  cases x <;> cases p <;> decide

theorem fanOfCode_fanNumber (f : FanId) : fanOfCode (byteOf (fanNumber f)).toNat = some f := by
  obtain ⟨x, p⟩ := f
  cases x <;> cases p <;> decide

theorem seatOfCode_seatCode (x : Seat) : seatOfCode (byteOf (seatCode x)).toNat = some x := by cases x <;> decide

theorem cellOfCode_cellNumber (c : HoldCell) : cellOfCode (byteOf (cellNumber c)).toNat = some c := by cases c <;> decide

/-- A comfort value is OK exactly where it is stored as carried. -/
theorem clampResult_eq (carried stored : Nat) :
    clampResult carried stored = if stored = carried then ResultCode.ok else .clamped := rfl

/-! ## Grants -/

/-- Taking a grant sets it. -/
theorem takeGrant_grant (g : Nat) (c : ZoneChannel) : (takeGrant g c).grant = g := by
  unfold takeGrant
  split <;> rfl

/-- A new request is set, and the grant is the smaller of itself and the request. -/
theorem setRequest_spec (r : Nat) (c : ZoneChannel) :
    (setRequest r c).request = r ∧ (setRequest r c).grant = min c.grant r := by
  unfold setRequest
  split
  · rename_i h
    exact ⟨rfl, (Nat.min_eq_right (Nat.le_of_lt h)).symm⟩
  · rename_i h
    exact ⟨rfl, (Nat.min_eq_left (Nat.le_of_not_lt h)).symm⟩

/-- Shutting a zone leaves no request, no grant and no window. -/
theorem shutZone_off (st : ZoneState) (c : ZoneChannel) :
    (shutZone st c).request = 0 ∧ (shutZone st c).grant = 0 ∧ (shutZone st c).window = 0 ∧ (shutZone st c).gate = false ∧
      (shutZone st c).state = st := ⟨rfl, rfl, rfl, rfl, rfl⟩

theorem setGranted_granted (g : Nat) (c : FanChannel) : (setGranted g c).granted = g := rfl

/-- Re-deriving a demand sets it, and the granted level is no more than it. -/
theorem rederive_spec (a : Bool) (l : Nat) (c : FanChannel) :
    (rederive a l c).demand = fanDemand a l c.state ∧ (rederive a l c).granted = min c.granted (fanDemand a l c.state) := by
  unfold rederive
  dsimp only
  split
  · rename_i h
    exact ⟨rfl, (Nat.min_eq_right (Nat.le_of_lt h)).symm⟩
  · rename_i h
    exact ⟨rfl, (Nat.min_eq_left (Nat.le_of_not_lt h)).symm⟩

end Sys2Proof.Machine
end

