-- ==== Sys2Proof/Laws/Notices.lean ====
section
/-! SUPPORT. The pending sets: what a raise puts in and leaves in, the order of the pairs, and the attention line. -/
namespace Sys2Proof.Machine

/-- A raise puts its pair in (spec/10 R185). -/
theorem mem_insertNotice (n : Notice) (l : List Notice) : n ∈ insertNotice n l := by
  induction l with
  | nil => simp [insertNotice]
  | cons p t ih =>
    simp only [insertNotice]
    repeat' split
    all_goals simp [ih]

/-- A raise leaves every pair of another kind or seat in. -/
theorem mem_insertNotice_other (n p : Notice) (l : List Notice) (hp : p ∈ l) (hr : p.rank ≠ n.rank) :
    p ∈ insertNotice n l := by
  induction l with
  | nil => cases hp
  | cons q t ih =>
    simp only [insertNotice]
    split
    · exact .tail _ hp
    · split
      · rename_i hq
        cases hp with
        | head => exact absurd hq.symm hr
        | tail _ h => exact .tail _ h
      · cases hp with
        | head => exact .head _
        | tail _ h => exact .tail _ (ih h)

/-- What a raise leaves in the set came of the set or of the raise. -/
theorem mem_of_insertNotice (n p : Notice) (l : List Notice) (h : p ∈ insertNotice n l) : p = n ∨ p ∈ l := by
  induction l with
  | nil =>
    simp only [insertNotice, List.mem_singleton] at h
    exact .inl h
  | cons q t ih =>
    simp only [insertNotice] at h
    split at h
    · simpa using h
    · split at h
      · cases h with
        | head => exact .inl rfl
        | tail _ h => exact .inr (.tail _ h)
      · cases h with
        | head => exact .inr (.head _)
        | tail _ h => exact (ih h).imp_right (.tail _)

/-- A raise keeps the pairs in the order of choice, each once (spec/10 R185). -/
theorem ranksRise_insertNotice (n : Notice) (l : List Notice) (h : ranksRise l) : ranksRise (insertNotice n l) := by
  induction l with
  | nil => exact ⟨by simp, trivial⟩
  | cons q t ih =>
    simp only [insertNotice]
    split
    · rename_i hlt
      refine ⟨fun p hp => ?_, h⟩
      cases hp with
      | head => exact hlt
      | tail _ ht => exact Nat.lt_trans hlt (h.1 p ht)
    · split
      · rename_i he
        exact ⟨fun p hp => he ▸ h.1 p hp, h.2⟩
      · rename_i hlt hne
        refine ⟨fun p hp => ?_, ih h.2⟩
        cases mem_of_insertNotice n p t hp with
        | inl e => subst e; omega
        | inr ht => exact h.1 p ht

/-- Pairs filtered out of a set in order leave it in order. -/
theorem ranksRise_filter (q : Notice → Bool) (l : List Notice) (h : ranksRise l) : ranksRise (l.filter q) := by
  induction l with
  | nil => trivial
  | cons p t ih =>
    simp only [List.filter]
    split
    · exact ⟨fun r hr => h.1 r (List.mem_filter.mp hr).1, ih h.2⟩
    · exact ih h.2

/-- A box is sound: its line exact, its set in order (spec/10 R185, R187). -/
def NoticeBox.sound (b : NoticeBox) : Prop := b.exact ∧ ranksRise b.pending

theorem judged_exact (b : NoticeBox) : b.judged.exact := rfl

theorem receive_sound (n : Notice) (b : NoticeBox) (h : b.sound) : (b.receive n).sound :=
  ⟨judged_exact _, ranksRise_insertNotice n b.pending h.2⟩

theorem dropSeatKinds_sound (b : NoticeBox) (h : b.sound) : b.dropSeatKinds.sound :=
  ⟨judged_exact _, ranksRise_filter _ b.pending h.2⟩

/-- A raise keeps every box sound. -/
theorem deliver_sound (s : State) (n : Notice) (reached : Bool) (m : Master) (h : s.noticesSound) :
    (s.deliver n reached m).noticesSound := by
  unfold State.deliver
  split
  · intro k
    by_cases hk : k = m
    · subst hk
      simp only [State.modNotices, PerMaster.get_set_same]
      exact receive_sound n _ (h k)
    · simpa [State.modNotices, hk] using h k
  · exact h

theorem raiseDevice_sound (s : State) (k : NoticeKind) (d : Detail) (h : s.noticesSound) : (raiseDevice k d s).noticesSound :=
  deliver_sound s _ _ _ h

theorem raiseSeat_sound (s : State) (k : NoticeKind) (x : Seat) (d : Detail) (e : Option Master) (h : s.noticesSound) :
    (raiseSeat k x d e s).noticesSound := deliver_sound _ _ _ _ (deliver_sound _ _ _ _ (deliver_sound _ _ _ _ h))

theorem passCore_notices (s : State) :
    (passCore s).notices = s.notices ∨
    ∃ n : Notice, n.kind = .budgetLimited ∧ (passCore s).notices = (s.deliver n true .gateway).notices := by
  show (storeResult (allocate s.passInput) s).notices = s.notices ∨ ∃ n : Notice, n.kind = .budgetLimited ∧
    (storeResult (allocate s.passInput) s).notices = (s.deliver n true .gateway).notices
  unfold storeResult noteLimited raiseDevice
  split
  · exact .inr ⟨_, rfl, rfl⟩
  · exact .inl rfl

theorem readRecord_notices (s : State) (i : StepIndex) :
    (readRecord i s).notices = s.notices ∨
    ∃ n : Notice, n.kind = .storeError ∧ (readRecord i s).notices = (s.deliver n true .gateway).notices := by
  unfold readRecord
  split
  · unfold correctRecord raiseDevice
    split
    · exact .inl rfl
    · exact .inr ⟨_, rfl, rfl⟩
  · exact .inr ⟨_, rfl, rfl⟩
  · exact .inl rfl
  · exact .inl rfl

theorem sound_of_notices {s t : State} (h : s.noticesSound) (e : t.notices = s.notices) : t.noticesSound := by
  intro m
  rw [e]
  exact h m

/-- A pass and the reports it leads to keep every box sound. -/
theorem Stirs.noticesSound {P : Seat → Prop} {s t : State} (h : Stirs P s t) (hs : s.noticesSound) : t.noticesSound := by
  induction h with
  | same => exact hs
  | air _ f hf ih => exact ih
  | reports _ l ih => exact ih
  | releases _ r ih => exact ih
  | cursor _ x hp f hf ih => exact ih
  | regulator _ x f hf ih => exact ih
  | zeroSetpoint _ x c ih => exact ih
  | underfill _ x ih => exact ih
  | raised _ n reached m _ ih => exact deliver_sound _ _ _ _ ih
  | pass _ ih =>
    cases passCore_notices _ with
    | inl e => exact sound_of_notices ih e
    | inr e =>
      obtain ⟨n, _, e⟩ := e
      exact sound_of_notices (deliver_sound _ n true .gateway ih) e
  | read _ i ih =>
    cases readRecord_notices _ i with
    | inl e => exact sound_of_notices ih e
    | inr e =>
      obtain ⟨n, _, e⟩ := e
      exact sound_of_notices (deliver_sound _ n true .gateway ih) e

/-- Pairs of different kinds differ in rank. -/
theorem rank_ne_of_kind (n p : Notice) (h : n.kind ≠ p.kind) : n.rank ≠ p.rank := by
  have b : n.kind.bit ≠ p.kind.bit := fun e => h (by
    revert e
    cases n.kind <;> cases p.kind <;> simp [NoticeKind.bit])
  have bound (o : Option Seat) : seatRank o ≤ 2 := by
    cases o with
    | none => exact Nat.le_refl 2
    | some x => cases x <;> decide
  have h1 := bound n.seat
  have h2 := bound p.seat
  unfold Notice.rank
  omega

theorem deliver_keeps (s : State) (n p : Notice) (reached : Bool) (m k : Master) (hp : p ∈ (s.notices.get k).pending)
    (hk : p.kind ≠ n.kind) : p ∈ ((s.deliver n reached m).notices.get k).pending := by
  unfold State.deliver
  split
  · by_cases e : k = m
    · subst e
      simpa [State.modNotices, NoticeBox.receive, NoticeBox.judged] using
        mem_insertNotice_other n p _ hp (rank_ne_of_kind p n hk)
    · simpa [State.modNotices, e] using hp
  · exact hp

/-- A pass and the reports it leads to leave a pending pair in place, whose kind they do not raise. -/
theorem Stirs.keeps_notice {P : Seat → Prop} {s t : State} (h : Stirs P s t) (k : Master) (p : Notice)
    (hp : p ∈ (s.notices.get k).pending) (hk : p.kind.isReported = false) : p ∈ (t.notices.get k).pending := by
  induction h with
  | same => exact hp
  | air _ f hf ih => exact ih
  | reports _ l ih => exact ih
  | releases _ r ih => exact ih
  | cursor _ x hp f hf ih => exact ih
  | regulator _ x f hf ih => exact ih
  | zeroSetpoint _ x c ih => exact ih
  | underfill _ x ih => exact ih
  | raised _ n reached m hn ih =>
    refine deliver_keeps _ n p reached m k ih fun e => ?_
    rw [e, hn] at hk
    cases hk
  | pass _ ih =>
    cases passCore_notices _ with
    | inl e => rw [e]; exact ih
    | inr e =>
      obtain ⟨n, hn, e⟩ := e
      rw [e]
      refine deliver_keeps _ n p true .gateway k ih fun e => ?_
      rw [e, hn] at hk
      cases hk
  | read _ i ih =>
    cases readRecord_notices _ i with
    | inl e => rw [e]; exact ih
    | inr e =>
      obtain ⟨n, hn, e⟩ := e
      rw [e]
      refine deliver_keeps _ n p true .gateway k ih fun e => ?_
      rw [e, hn] at hk
      cases hk

/-- A seat notice reaches each seat reader that the raise does not leave out (spec/10 R184). -/
theorem raiseSeat_reaches (s : State) (k : NoticeKind) (x : Seat) (d : Detail) (e : Option Master) (m : Master)
    (hr : s.mayRead m x.region = true) (he : e ≠ some m) :
    (⟨k, some x, d⟩ : Notice) ∈ ((raiseSeat k x d e s).notices.get m).pending := by
  have step (u : State) (reached : Bool) (j i : Master) (h : (⟨k, some x, d⟩ : Notice) ∈ (u.notices.get i).pending) :
      (⟨k, some x, d⟩ : Notice) ∈ ((u.deliver ⟨k, some x, d⟩ reached j).notices.get i).pending := by
    unfold State.deliver
    split
    · by_cases q : i = j
      · subst q
        simpa [State.modNotices, NoticeBox.receive, NoticeBox.judged] using mem_insertNotice _ _
      · simpa [State.modNotices, q] using h
    · exact h
  have reach (u : State) (reached : Bool) (j : Master) (ht : reached = true) :
      (⟨k, some x, d⟩ : Notice) ∈ ((u.deliver ⟨k, some x, d⟩ reached j).notices.get j).pending := by
    simpa [State.deliver, ht, State.modNotices, NoticeBox.receive, NoticeBox.judged] using mem_insertNotice _ _
  have he' : (e != some m) = true := by simpa using he
  cases m with
  | gateway => exact step _ _ _ _ (step _ _ _ _ (reach _ _ _ (by simp [hr, he'])))
  | leftPanel => exact step _ _ _ _ (reach _ _ _ (by simp [hr, he']))
  | rightPanel => exact reach _ _ _ (by simp [hr, he'])

end Sys2Proof.Machine
end

