-- ==== Sys2Proof/Laws/PerInstr.lean ====
section
/-! SUPPORT. The family of statements made per command: the frame that a command's row stands for carries a code of the
command list with the data length and the direction that the list gives it; an event stands for no frame. -/
namespace Sys2Proof.Laws
open Sys2Proof.Machine

/-- A bus command's frame agrees with the command list (spec/09 section 9.5); an event has none. -/
def Framed.Statement (i : Instr) : Prop :=
  match writeFrameOf i, readFrameOf i with
  | some (_, code, data), none =>
    ∃ c, commandOfCode code.toNat = some c ∧ c.isRead = false ∧ c.dataLength = data.length
  | none, some (_, code, data) =>
    ∃ c, commandOfCode code.toNat = some c ∧ c.isRead = true ∧ c.dataLength = data.length
  | none, none => True
  | some _, some _ => False

theorem Framed.powerOn (ads : BitVec 2) (occL occR : Bool) (vsns : Nat) : Framed.Statement (.powerOn ads occL occR vsns) :=
  trivial

theorem Framed.transactionStart (addr : Byte) : Framed.Statement (.transactionStart addr) := trivial

theorem Framed.frameByte (b : Byte) : Framed.Statement (.frameByte b) := trivial

theorem Framed.busStop : Framed.Statement (.busStop) := trivial

theorem Framed.repeatedStart (addr : Byte) : Framed.Statement (.repeatedStart addr) := trivial

theorem Framed.responseByte (acked : Bool) : Framed.Statement (.responseByte acked) := trivial

theorem Framed.transactionTimeout : Framed.Statement (.transactionTimeout) := trivial

theorem Framed.busLowTimeout : Framed.Statement (.busLowTimeout) := trivial

theorem Framed.setZone (m : Master) (zone level : Byte) : Framed.Statement (.setZone m zone level) :=
  ⟨.setZone, rfl, rfl, rfl⟩

theorem Framed.setFan (m : Master) (fan level : Byte) : Framed.Statement (.setFan m fan level) := ⟨.setFan, rfl, rfl, rfl⟩

theorem Framed.setSupport (m : Master) (seat cell : Byte) (setpoint : Half) : Framed.Statement (.setSupport m seat cell setpoint) :=
  ⟨.setSupport, rfl, rfl, rfl⟩

theorem Framed.startProgram (m : Master) (seat program minutes : Byte) : Framed.Statement (.startProgram m seat program minutes) :=
  ⟨.startProgram, rfl, rfl, rfl⟩

theorem Framed.adjustProgram (m : Master) (seat intensity speed : Byte) : Framed.Statement (.adjustProgram m seat intensity speed) :=
  ⟨.adjustProgram, rfl, rfl, rfl⟩

theorem Framed.pause (m : Master) (seat : Byte) : Framed.Statement (.pause m seat) := ⟨.pause, rfl, rfl, rfl⟩

theorem Framed.resume (m : Master) (seat : Byte) : Framed.Statement (.resume m seat) := ⟨.resume, rfl, rfl, rfl⟩

theorem Framed.stopProgram (m : Master) (seat : Byte) : Framed.Statement (.stopProgram m seat) :=
  ⟨.stopProgram, rfl, rfl, rfl⟩

theorem Framed.resetSeats (m : Master) : Framed.Statement (.resetSeats m) := ⟨.resetSeats, rfl, rfl, rfl⟩

theorem Framed.readSeat (m : Master) (seat part : Byte) : Framed.Statement (.readSeat m seat part) :=
  ⟨.readSeat, rfl, rfl, rfl⟩

theorem Framed.setCeiling (m : Master) (ceiling : Half) : Framed.Statement (.setCeiling m ceiling) :=
  ⟨.setCeiling, rfl, rfl, rfl⟩

theorem Framed.readBudget (m : Master) (part : Byte) : Framed.Statement (.readBudget m part) := ⟨.readBudget, rfl, rfl, rfl⟩

theorem Framed.writeStep (m : Master) (data : StepData) : Framed.Statement (.writeStep m data) := ⟨.writeStep, rfl, rfl, rfl⟩

theorem Framed.readStep (m : Master) (index : Byte) : Framed.Statement (.readStep m index) := ⟨.readStep, rfl, rfl, rfl⟩

theorem Framed.writeProgramEntry (m : Master) (program validity firstStep minutes : Byte) : Framed.Statement (.writeProgramEntry m program validity firstStep minutes) :=
  ⟨.writeProgramEntry, rfl, rfl, rfl⟩

theorem Framed.readProgramEntry (m : Master) (program : Byte) : Framed.Statement (.readProgramEntry m program) :=
  ⟨.readProgramEntry, rfl, rfl, rfl⟩

theorem Framed.writeParameter (m : Master) (number : Byte) (value : Half) : Framed.Statement (.writeParameter m number value) :=
  ⟨.writeParameter, rfl, rfl, rfl⟩

theorem Framed.readParameter (m : Master) (number : Byte) : Framed.Statement (.readParameter m number) :=
  ⟨.readParameter, rfl, rfl, rfl⟩

theorem Framed.readDiagnostics (m : Master) (part : Byte) : Framed.Statement (.readDiagnostics m part) :=
  ⟨.readDiagnostics, rfl, rfl, rfl⟩

theorem Framed.clearDiagnostics (m : Master) : Framed.Statement (.clearDiagnostics m) := ⟨.clearDiagnostics, rfl, rfl, rfl⟩

theorem Framed.writeAccess (m : Master) (master region right : Byte) : Framed.Statement (.writeAccess m master region right) :=
  ⟨.writeAccess, rfl, rfl, rfl⟩

theorem Framed.readAccess (m : Master) : Framed.Statement (.readAccess m) := ⟨.readAccess, rfl, rfl, rfl⟩

theorem Framed.setNoticeMask (m : Master) (mask : Half) : Framed.Statement (.setNoticeMask m mask) :=
  ⟨.setNoticeMask, rfl, rfl, rfl⟩

theorem Framed.takeNotice (m : Master) : Framed.Statement (.takeNotice m) := ⟨.takeNotice, rfl, rfl, rfl⟩

theorem Framed.readNotices (m : Master) : Framed.Statement (.readNotices m) := ⟨.readNotices, rfl, rfl, rfl⟩

theorem Framed.readResult (m : Master) : Framed.Statement (.readResult m) := ⟨.readResult, rfl, rfl, rfl⟩

theorem Framed.occupancyInputChange (seat : Seat) (occupied : Bool) : Framed.Statement (.occupancyInputChange seat occupied) :=
  trivial

theorem Framed.debounceExpiry (seat : Seat) : Framed.Statement (.debounceExpiry seat) := trivial

theorem Framed.vacancyDelayExpiry (seat : Seat) : Framed.Statement (.vacancyDelayExpiry seat) := trivial

theorem Framed.clearTimeExpiry (seat : Seat) : Framed.Statement (.clearTimeExpiry seat) := trivial

theorem Framed.scanCompletion (readings : PerSeat (Five Int)) (itotSum itotCount : Nat) :
    Framed.Statement (.scanCompletion readings itotSum itotCount) := trivial

theorem Framed.zoneFrameStart (zone : ZoneId) : Framed.Statement (.zoneFrameStart zone) := trivial

theorem Framed.onWindowEnd (zone : ZoneId) (current : Nat) : Framed.Statement (.onWindowEnd zone current) := trivial

theorem Framed.overcurrent (zone : ZoneId) (current : Nat) : Framed.Statement (.overcurrent zone current) := trivial

theorem Framed.stepDown (zone : ZoneId) : Framed.Statement (.stepDown zone) := trivial

theorem Framed.tachPulse (fan : FanId) : Framed.Statement (.tachPulse fan) := trivial

theorem Framed.fanStall (fan : FanId) : Framed.Statement (.fanStall fan) := trivial

theorem Framed.retryTimerExpiry (fan : FanId) : Framed.Statement (.retryTimerExpiry fan) := trivial

theorem Framed.cleanRunComplete (fan : FanId) : Framed.Statement (.cleanRunComplete fan) := trivial

theorem Framed.ceilingRefreshExpiry : Framed.Statement (.ceilingRefreshExpiry) := trivial

theorem Framed.supplySample (reading : Nat) : Framed.Statement (.supplySample reading) := trivial

theorem Framed.manifoldSample (sampleL sampleR : Int) : Framed.Statement (.manifoldSample sampleL sampleR) := trivial

theorem Framed.selectorArrival : Framed.Statement (.selectorArrival) := trivial

theorem Framed.riseWindowExpiry : Framed.Statement (.riseWindowExpiry) := trivial

theorem Framed.maximumFillExpiry : Framed.Statement (.maximumFillExpiry) := trivial

theorem Framed.ventEnd (owner : VentOwner) : Framed.Statement (.ventEnd owner) := trivial

theorem Framed.cellBitError (index : StepIndex) : Framed.Statement (.cellBitError index) := trivial

theorem Framed.dwellEnd (seat : Seat) : Framed.Statement (.dwellEnd seat) := trivial

theorem Framed.programTimerExpiry (seat : Seat) : Framed.Statement (.programTimerExpiry seat) := trivial

theorem Framed.supportRefreshExpiry (seat : Seat) : Framed.Statement (.supportRefreshExpiry seat) := trivial

theorem Framed.lossOfSupply : Framed.Statement (.lossOfSupply) := trivial

end Sys2Proof.Laws
end

