-- ==== Sys2Proof/Laws/Tables.lean ====
section
/-! SUPPORT. The canonical tables: a read after a write, every other key as before, and the canonical form kept by every
memory operation. -/
namespace Sys2Proof.Machine

section
variable {α : Type} [DecidableEq α] (dflt : Nat → α)

/-- No key below the table's bound is listed. -/
theorem Table.get_below (lo hi : Nat) (m : List (Nat × α)) (k : Nat) (h : Table.canonical dflt lo hi m = true) (hk : k < lo) :
    Table.get dflt m k = dflt k := by
  induction m generalizing lo with
  | nil => rfl
  | cons e t ih =>
    obtain ⟨k', v⟩ := e
    simp only [Table.canonical, Bool.and_eq_true, decide_eq_true_eq] at h
    have : k ≠ k' := by omega
    simp only [Table.get, if_neg this]
    exact ih (k' + 1) h.2 (by omega)

/-- A read after a write to the same key. -/
theorem Table.get_put_same (lo hi : Nat) (m : List (Nat × α)) (k : Nat) (v : α) (h : Table.canonical dflt lo hi m = true) :
    Table.get dflt (Table.put dflt m k v) k = v := by
  induction m generalizing lo with
  | nil =>
    by_cases hv : v = dflt k <;> simp [Table.put, Table.get, hv]
  | cons e t ih =>
    obtain ⟨k', v'⟩ := e
    simp only [Table.canonical, Bool.and_eq_true, decide_eq_true_eq] at h
    simp only [Table.put]
    split
    · rename_i hlt
      split
      · rename_i hv
        have hne : k ≠ k' := by omega
        simp only [Table.get, if_neg hne]
        rw [Table.get_below dflt (k' + 1) hi t k h.2 (by omega), hv]
      · simp [Table.get]
    · split
      · rename_i hlt he
        split
        · rename_i hv
          rw [Table.get_below dflt (k' + 1) hi t k h.2 (by omega), hv]
        · simp [Table.get]
      · rename_i hlt hne
        simp only [Table.get, if_neg hne]
        exact ih (k' + 1) h.2

/-- A write leaves every other key alone. -/
theorem Table.get_put_other (lo hi : Nat) (m : List (Nat × α)) (k j : Nat) (v : α) (h : Table.canonical dflt lo hi m = true)
    (hj : j ≠ k) : Table.get dflt (Table.put dflt m k v) j = Table.get dflt m j := by
  induction m generalizing lo with
  | nil => by_cases hv : v = dflt k <;> simp [Table.put, Table.get, hv, hj]
  | cons e t ih =>
    obtain ⟨k', v'⟩ := e
    simp only [Table.canonical, Bool.and_eq_true, decide_eq_true_eq] at h
    simp only [Table.put]
    split
    · split
      · rfl
      · simp [Table.get, hj]
    · split
      · rename_i hlt he
        have : j ≠ k' := he ▸ hj
        split <;> simp [Table.get, hj, this]
      · simp only [Table.get]
        split
        · rfl
        · exact ih (k' + 1) h.2

/-- The canonical form is wide enough from a lower bound too. -/
theorem Table.canonical_lower (lo lo' hi : Nat) (m : List (Nat × α)) (h : Table.canonical dflt lo hi m = true) (hl : lo' ≤ lo) :
    Table.canonical dflt lo' hi m = true := by
  cases m with
  | nil => rfl
  | cons e t =>
    obtain ⟨k', v'⟩ := e
    simp only [Table.canonical, Bool.and_eq_true, decide_eq_true_eq] at h ⊢
    exact ⟨⟨⟨by omega, h.1.1.2⟩, h.1.2⟩, h.2⟩

/-- A write within the bounds keeps the canonical form. -/
theorem Table.canonical_put (lo hi : Nat) (m : List (Nat × α)) (k : Nat) (v : α) (h : Table.canonical dflt lo hi m = true)
    (hlo : lo ≤ k) (hhi : k ≤ hi) : Table.canonical dflt lo hi (Table.put dflt m k v) = true := by
  induction m generalizing lo with
  | nil =>
    by_cases hv : v = dflt k
    · simp [Table.put, Table.canonical, hv]
    · simp [Table.put, Table.canonical, hv, hlo, hhi]
  | cons e t ih =>
    obtain ⟨k', v'⟩ := e
    have h' := h
    simp only [Table.canonical, Bool.and_eq_true, decide_eq_true_eq] at h
    simp only [Table.put]
    split
    · rename_i hlt
      split
      · exact h'
      · rename_i hv
        simp only [Table.canonical, Bool.and_eq_true, decide_eq_true_eq]
        exact ⟨⟨⟨hlo, hhi⟩, hv⟩, ⟨⟨by omega, h.1.1.2⟩, h.1.2⟩, h.2⟩
    · split
      · rename_i hlt he
        split
        · exact Table.canonical_lower dflt (k' + 1) lo hi t h.2 (by omega)
        · rename_i hv
          simp only [Table.canonical, Bool.and_eq_true, decide_eq_true_eq]
          exact ⟨⟨⟨hlo, hhi⟩, hv⟩, he ▸ h.2⟩
      · simp only [Table.canonical, Bool.and_eq_true, decide_eq_true_eq]
        exact ⟨⟨⟨h.1.1.1, h.1.1.2⟩, h.1.2⟩, ih (k' + 1) h.2 (by omega)⟩

end

/-! ## The pattern store, the directory and the parameters -/

/-- A RAM record's write keeps the store's canonical form. -/
theorem putRam_wf (s : State) (i : StepIndex) (r : RamRecord) (h : Memory.wf s.ram = true) (hi : inRom i = false) :
    Memory.wf (s.putRam i r).ram = true := by
  have : 64 ≤ i.toNat := by simpa [inRom] using hi
  exact Table.canonical_put blankRecord 64 255 s.ram i.toNat r h this (by omega)

/-- A RAM record reads as it was written. -/
theorem ramRecord_putRam (s : State) (i : StepIndex) (r : RamRecord) (h : Memory.wf s.ram = true) :
    (s.putRam i r).ramRecord i = r := Table.get_put_same blankRecord 64 255 s.ram i.toNat r h

/-- Every other RAM record reads as before. -/
theorem ramRecord_putRam_other (s : State) (i j : StepIndex) (r : RamRecord) (h : Memory.wf s.ram = true) (hj : j ≠ i) :
    (s.putRam i r).ramRecord j = s.ramRecord j :=
  Table.get_put_other blankRecord 64 255 s.ram i.toNat j.toNat r h (fun e => hj (BitVec.eq_of_toNat_eq e))

/-- A directory entry's write keeps the directory's canonical form. -/
theorem putEntry_wf (s : State) (n : Nat) (e : DirEntry) (h : Directory.wf s.directory = true) (hlo : 4 ≤ n) (hhi : n ≤ 15) :
    Directory.wf (s.putEntry n e).directory = true := Table.canonical_put unsetEntry 4 15 s.directory n e h hlo hhi

/-- A writable directory entry reads as it was written. -/
theorem dirEntry_putEntry (s : State) (n : Nat) (e : DirEntry) (h : Directory.wf s.directory = true) (hlo : 4 ≤ n) :
    (s.putEntry n e).dirEntry n = e := by
  have : ¬ n < 4 := by omega
  simpa [State.dirEntry, State.putEntry, this] using Table.get_put_same unsetEntry 4 15 s.directory n e h

/-- Every other directory entry reads as before. -/
theorem dirEntry_putEntry_other (s : State) (n k : Nat) (e : DirEntry) (h : Directory.wf s.directory = true) (hk : k ≠ n) :
    (s.putEntry n e).dirEntry k = s.dirEntry k := by
  simp only [State.dirEntry, State.putEntry]
  split
  · rfl
  · exact Table.get_put_other unsetEntry 4 15 s.directory n k e h hk

/-- A range whose bounds stand in order. -/
def ParamRange.regular : ParamRange → Bool
  | .span lo hi => decide (lo ≤ hi)
  | .hundreds lo hi => decide (lo ≤ hi) && decide (lo % 100 = 0)
  | .zeroOr lo hi => decide (lo ≤ hi) && decide (0 < lo)
  | .scan => true

theorem nearestAllowed_span (lo hi v : Nat) (h : lo ≤ hi) :
    nearestAllowed (.span lo hi) (nearestAllowed (.span lo hi) v) = nearestAllowed (.span lo hi) v := by
  simp only [nearestAllowed, clampNat]; omega

theorem nearestAllowed_hundreds (lo hi v : Nat) (h : lo ≤ hi) (hl : lo % 100 = 0) :
    nearestAllowed (.hundreds lo hi) (nearestAllowed (.hundreds lo hi) v) = nearestAllowed (.hundreds lo hi) v := by
  simp only [nearestAllowed, clampNat]; omega

theorem nearestAllowed_zeroOr (lo hi v : Nat) (h : lo ≤ hi) (hl : 0 < lo) :
    nearestAllowed (.zeroOr lo hi) (nearestAllowed (.zeroOr lo hi) v) = nearestAllowed (.zeroOr lo hi) v := by
  simp only [nearestAllowed, clampNat]
  by_cases h1 : 2 * v ≤ lo
  · simp [h1]
  · have : ¬ 2 * max lo (min v hi) ≤ lo := by omega
    simp only [if_neg h1, if_neg this]; omega

theorem nearestAllowed_scan (v : Nat) :
    nearestAllowed .scan (nearestAllowed .scan v) = nearestAllowed .scan v := by
  simp only [nearestAllowed]
  by_cases h1 : v ≤ 750
  · simp [h1]
  · by_cases h2 : v ≤ 1500
    · simp [h1, h2]
    · by_cases h3 : v ≤ 3000 <;> simp [h1, h2, h3]

/-- A value that a write stores is one that a write would store as it is. -/
theorem nearestAllowed_idem (r : ParamRange) (v : Nat) (h : r.regular = true) :
    nearestAllowed r (nearestAllowed r v) = nearestAllowed r v := by
  cases r with
  | span lo hi => exact nearestAllowed_span lo hi v (by simpa [ParamRange.regular] using h)
  | hundreds lo hi =>
    simp only [ParamRange.regular, Bool.and_eq_true, decide_eq_true_eq] at h
    exact nearestAllowed_hundreds lo hi v h.1 h.2
  | zeroOr lo hi =>
    simp only [ParamRange.regular, Bool.and_eq_true, decide_eq_true_eq] at h
    exact nearestAllowed_zeroOr lo hi v h.1 h.2
  | scan => exact nearestAllowed_scan v

theorem regular_ite (c : Prop) [Decidable c] (a b : ParamRange) (ha : a.regular = true) (hb : b.regular = true) :
    (if c then a else b).regular = true := by
  split
  · exact ha
  · exact hb

theorem paramRange_regular (n : Nat) : (paramRange n).regular = true := by
  unfold paramRange
  repeat' apply regular_ite
  all_goals decide

/-- The value a write stores is one its parameter may hold. -/
theorem nearestAllowed_stored (n v : Nat) :
    nearestAllowed (paramRange n) (nearestAllowed (paramRange n) v) = nearestAllowed (paramRange n) v :=
  nearestAllowed_idem _ _ (paramRange_regular n)

theorem Table.all_put (dflt : Nat → Nat) (q : Nat × Nat → Bool) (m : List (Nat × Nat)) (k v : Nat) (h : m.all q = true)
    (hv : q (k, v) = true) : (Table.put dflt m k v).all q = true := by
  induction m with
  | nil =>
    simp only [Table.put]
    split
    · rfl
    · simp [hv]
  | cons e t ih =>
    obtain ⟨k', v'⟩ := e
    simp only [List.all_cons, Bool.and_eq_true] at h
    simp only [Table.put]
    split
    · split
      · simp [h.1, h.2]
      · simp [h.1, h.2, hv]
    · split
      · split
        · exact h.2
        · simp [h.2, hv]
      · simp [h.1, ih h.2]

/-- A parameter's write keeps the parameters' canonical form and ranges. -/
theorem putParam_wf (s : State) (n v : Nat) (h : Params.wf s.params = true) (hn : n ≤ 59) :
    Params.wf (s.putParam n (nearestAllowed (paramRange n) v)).params = true := by
  simp only [Params.wf, Bool.and_eq_true] at h ⊢
  refine ⟨Table.canonical_put paramDefault 0 59 s.params n _ h.1 (Nat.zero_le n) hn, ?_⟩
  exact Table.all_put paramDefault _ s.params n _ h.2 (by simpa using nearestAllowed_stored n v)

/-- A parameter reads as it was written. -/
theorem param_putParam (s : State) (n v : Nat) (h : Params.wf s.params = true) : (s.putParam n v).param n = v := by
  simp only [Params.wf, Bool.and_eq_true] at h
  exact Table.get_put_same paramDefault 0 59 s.params n v h.1

/-- Every other parameter reads as before. -/
theorem param_putParam_other (s : State) (n k v : Nat) (h : Params.wf s.params = true) (hk : k ≠ n) :
    (s.putParam n v).param k = s.param k := by
  simp only [Params.wf, Bool.and_eq_true] at h
  exact Table.get_put_other paramDefault 0 59 s.params n k v h.1 hk

end Sys2Proof.Machine
end

