-- ==== Sys2Proof/WellFormed.lean ====
section
/-! DEFINITION. The checks a command's operands must pass to be one the wire or the sensors can deliver. -/
namespace Sys2Proof

/-- A power-on comes of a supply at or above 6.0 V (spec/04 R62). -/
def Instr.supplyPresent : Instr → Bool
  | .powerOn _ _ _ v => 60 ≤ v
  | _ => true

/-- A scan interval holds at least one ITOT reading, or it has no mean (spec/04 R64). -/
def Instr.meanExists : Instr → Bool
  | .scanCompletion _ _ n => 0 < n
  | _ => true

/-- Bit errors reach RAM records only, indices 64 to 255 (spec/06 R118). -/
def Instr.bitErrorInRam : Instr → Bool
  | .cellBitError i => 64 ≤ i.toNat
  | _ => true

/-- The command is one that the block's surroundings can deliver. -/
def Instr.wellFormed (i : Instr) : Bool :=
  i.supplyPresent && i.meanExists && i.bitErrorInRam

end Sys2Proof
end

