-- ==== Sys2Proof/Tests/Slice0.lean ====
section
/-! SUPPORT. The model's own tests: ill-formed commands refused, the manual's worked examples, and for each statement with
hypotheses a concrete state and operands that meet them. -/
namespace Sys2Proof.Tests
open Sys2Proof Sys2Proof.Machine

/-! ## Small states -/

/-- After power-on and the first scan: both seats EMPTY, the part on the bus. -/
def ready : State := { State.reset with scanned := true }

/-- The LEFT seat in an occupancy state. -/
def seated (o : Occupancy) : State := ready.modSeat .left fun r => { r with occupancy := o }

def z0 : ZoneId := ⟨.left, .cushion⟩

def f0 : FanId := ⟨.left, .cushion⟩

/-- A step that only dwells, and one that fills M0 and M1. -/
def dwellStep : StepFields := { vent := 0, fill := 0, target := 0, dwell := 10, next := none, again := none }

def fillStep : StepFields := { vent := 3, fill := 3, target := 300, dwell := 10, next := none, again := none }

/-- The LEFT zone 0 as given, its level `l`, in an OCCUPIED seat. -/
def zoned (l : Nat) (c : ZoneChannel) : State :=
  ((seated .occupied).setLevel z0 ⟨l, .gateway⟩).setZone z0 c

/-- The LEFT fan 0 as given, its level 2, in an OCCUPIED seat. -/
def fanned (c : FanChannel) : State := ((seated .occupied).setFanLevel f0 ⟨2, .gateway⟩).setFan f0 c

/-- The LEFT cursor RUNNING program 4 at step 64 in a phase, the seat OCCUPIED. -/
def playing (p : Phase) (f : StepFields) : State :=
  (seated .occupied).modCursor .left fun c =>
    { c with state := .running, phase := p, program := some 4, step := some 64, copy := some f, effTarget := 240
             effDwell := 10, seconds := 600 }

/-- The LEFT cursor's fill, SWITCHING, or FILLING with its timers run out; the LEFT manifold at `m`. -/
def massageFill (p0 : Option Nat) : Holder :=
  { entry := ⟨.massage .left, 3, 240, false⟩, p0 := p0, riseTimer := p0.map fun _ => 0, fillTimer := p0.map fun _ => 0
    elapsed := 0 }

def filling (p0 : Option Nat) (m : Nat) : State :=
  (playing .filling fillStep).modPneu fun p => { p with holder := some (massageFill p0), manifold := ⟨m, 0⟩ }

/-- The GATEWAY's frame in progress. -/
def receiving (bytes : List Byte) : State :=
  { ready with bus := { BusRecord.idle with phase := .receiving, master := some .gateway, received := bytes } }

/-- The GATEWAY's response in progress. -/
def sending (sent : Nat) (released : Bool) : State :=
  { ready with bus := { BusRecord.idle with
      phase := .sending, master := some .gateway, response := [1, 2, 3], sent := sent, released := released } }

/-- The state that a command leaves. -/
def after (c : Instr) (s : State) : State :=
  match exec c s with
  | .next t => t
  | .fault _ => s
  | .refused _ => s

/-! ## Well-formed commands -/

theorem test_supply_below_loss_level_is_ill_formed :
    (Instr.powerOn 0 false false 59).wellFormed = false ∧ (Instr.powerOn 0 false false 60).wellFormed = true := by decide

theorem test_empty_mean_is_ill_formed :
    (Instr.scanCompletion (.both (Five.all 250)) 0 0).wellFormed = false ∧
    (Instr.scanCompletion (.both (Five.all 250)) 0 1).wellFormed = true := by decide

theorem test_rom_bit_error_is_ill_formed :
    (Instr.cellBitError 63).wellFormed = false ∧ (Instr.cellBitError 64).wellFormed = true := by decide

/-! ## The manual's worked examples -/

/-- spec/04 R58: the state right after power-on is reset's. -/
theorem test_power_on_is_reset : powerUp 0 false false 138 State.reset = State.reset := by decide +kernel

/-- The catalogue's check value of the polynomial 0x2F with start 0xFF and no final inversion, spec/09 R173. -/
theorem test_check_byte : checkByte [0x31, 0x32, 0x33, 0x34, 0x35, 0x36, 0x37, 0x38, 0x39] = 0x20 := by decide +kernel

/-- spec/09 R173: the address bytes of base 0x50. -/
theorem test_address_bytes :
    addressByte 0 .gateway false = 0xA0 ∧ addressByte 0 .gateway true = 0xA1 ∧ addressByte 0 .leftPanel false = 0xA2 ∧
    addressByte 0 .rightPanel true = 0xA5 := by decide

/-- spec/02 section 2.4.1, level 4 at surface limit 450. -/
theorem test_control_law_level_four :
    controlLaw 390 25 10 20 450 312 = (100, .heating) ∧ controlLaw 390 25 10 20 450 372 = (43, .heating) ∧
    controlLaw 390 25 10 20 450 395 = (20, .heating) ∧ controlLaw 390 25 10 20 450 432 = (0, .limit) ∧
    controlLaw 390 25 10 20 450 450 = (0, .limit) := by decide

/-- spec/02 section 2.4.1, the neck zone at level 5, and level 2 at gain 7. -/
theorem test_control_law_cap_and_gain :
    controlLaw 420 30 10 20 430 409 = (41, .heating) ∧ controlLaw 420 30 10 20 430 415 = (20, .limit) ∧
    controlLaw 420 30 10 20 430 425 = (20, .limit) ∧ controlLaw 330 15 7 20 450 327 = (17, .heating) ∧
    controlLaw 330 15 7 20 450 343 = (5, .heating) ∧ controlLaw 330 15 7 20 450 360 = (0, .heating) := by decide

/-- The cabin of spec/04 section 4.7 at an effective ceiling. -/
def cabin (cEff : Nat) : PassInput :=
  { cEff := cEff, overhead := 8, pump := 75, demand := true, fans := ⟨⟨2, 2⟩, ⟨3, 0⟩⟩, fanI1 := 4, fanI2 := 7, fanI3 := 11
    rated := .both ⟨45, 45, 15, 30, 10⟩, requests := ⟨⟨80, 60, 100, 0, 50⟩, ⟨100, 100, 40, 70, 0⟩⟩ }

/-- spec/04 section 4.7.1. -/
theorem test_allocation_normal :
    allocate (cabin 240) =
      { status := .limited, demandSeen := true, permitted := true, fanCap := 3, fanGrants := ⟨⟨2, 2⟩, ⟨3, 0⟩⟩, dutyCap := 53
        grants := ⟨⟨53, 53, 53, 0, 50⟩, ⟨53, 53, 40, 53, 0⟩⟩, heater := 131, total := 239 } := by decide +kernel

/-- spec/04 sections 4.7.2 and 4.7.3. -/
theorem test_allocation_sagging_and_derated :
    ((allocate (cabin 60)).permitted, (allocate (cabin 60)).dutyCap, (allocate (cabin 60)).total) = (false, 10, 58) ∧
    ((allocate (cabin 220)).dutyCap, (allocate (cabin 220)).heater, (allocate (cabin 220)).total) = (45, 112, 220) := by
  decide +kernel

/-- spec/04 sections 4.7.4 and 4.7.5: a tight budget, and a ceiling at the overhead. -/
theorem test_allocation_tight_and_starved :
    ((allocate (cabin 20)).fanCap, (allocate (cabin 20)).dutyCap, (allocate (cabin 20)).total,
      (allocate (cabin 20)).status) = (1, 0, 20, .limited) ∧
    ((allocate (cabin 28)).fanCap, (allocate (cabin 28)).dutyCap) = (1, 3) ∧
    ((allocate (cabin 8)).status, (allocate (cabin 8)).total) = (.starved, 8) := by decide +kernel

/-- spec/07 R139's table. -/
theorem test_scaling :
    effectiveTarget 320 3 = 256 ∧ effectiveTarget 240 1 = 144 ∧ effectiveTarget 300 4 = 270 ∧ effectiveTarget 400 5 = 400 ∧
    effectiveDwell 25 3 = 17 ∧ effectiveDwell 25 1 = 37 ∧ effectiveDwell 1 3 = 1 ∧ effectiveDwell 0 2 = 0 ∧
    effectiveDwell 255 1 = 382 := by decide

/-- spec/09 R181's table, and a step of 100 ms. -/
theorem test_nearest_allowed :
    nearestAllowed (paramRange 38) 5 = 0 ∧ nearestAllowed (paramRange 38) 6 = 10 ∧ nearestAllowed (paramRange 0) 750 = 500 ∧
    nearestAllowed (paramRange 0) 751 = 1000 ∧ nearestAllowed (paramRange 0) 1501 = 2000 ∧
    nearestAllowed (paramRange 0) 3001 = 4000 ∧ nearestAllowed (paramRange 53) 2 = 1 ∧
    nearestAllowed (paramRange 49) 299 = 200 ∧ nearestAllowed (paramRange 49) 3001 = 3000 := by decide

theorem test_sixty_defaults : paramDefaults.length = 60 := by decide

/-- Every default lies in its own range. -/
theorem test_defaults_in_range :
    (paramDefaults.zipIdx.all fun e => nearestAllowed (paramRange e.2) e.1 == e.1) = true := by decide +kernel

/-- spec/06 R115: the printed program has the properties that software may rely on. -/
theorem test_program_zero_keeps_promises : blockOk 0 programZero = true := by decide +kernel

/-- The queue of spec/05 section 5.6 with the arbiter's view of it. -/
def queued (q : List Entry) (rotation : Nat) (last : Seat) (pos : SelPos) : State :=
  ready.modPneu fun p => { p with queue := q, rotation := rotation, lastSeat := some last, selector := .atRest pos }

def rightMassage (resumed : Bool) : Entry := ⟨.massage .right, 0x30, 300, resumed⟩

def leftSupport : Entry := ⟨.support .left, 0x1000, 200, false⟩

def rightSupport : Entry := ⟨.support .right, 0x8000, 180, false⟩

/-- spec/05 section 5.6 at 900, 2400 and 2850. -/
theorem test_arbiter_narrows :
    choose (queued [rightMassage false, leftSupport] 3 .left .left) = some (rightMassage false) ∧
    choose (queued [rightMassage true, leftSupport, rightSupport] 1 .right .right) = some rightSupport ∧
    choose (queued [rightMassage true, leftSupport] 2 .right .right) = some leftSupport := by decide +kernel

/-- spec/05 R99: another seat's grant counts from 1, the same seat's counts on to K, a resumed one does not count. -/
theorem test_rotation_counts :
    (countGrant 3 leftSupport (queued [] 2 .right .left).pneu).rotation = 1 ∧
    (countGrant 3 leftSupport (queued [] 3 .left .left).pneu).rotation = 3 ∧
    (countGrant 3 (rightMassage true) (queued [] 2 .right .left).pneu).rotation = 2 := by decide

/-- spec/05 section 5.5.3: fill 2 leaks and fill 3 does not; a top-up of 10 is not judged. -/
theorem test_leak_check : leaks 256 40 55 = true ∧ leaks 256 40 90 = false ∧ leaks 200 190 191 = false := by decide

/-- spec/02 section 2.7.1: the thresholds of a rating of 30. -/
theorem test_element_thresholds :
    lowWindow 8 30 = true ∧ lowWindow 9 30 = false ∧ overCurrent 46 30 = true ∧ overCurrent 45 30 = false := by decide

/-- spec/02 section 2.8.1: g lowered to 20 after 25 slots ends the window, after 15 it only shortens it. -/
theorem test_window_cut :
    (cutWindow 20 { ZoneChannel.powerOn with window := 40, gate := true, onSlots := 25 }).gate = false ∧
    (cutWindow 20 { ZoneChannel.powerOn with window := 40, gate := true, onSlots := 15 }).gate = true ∧
    (cutWindow 20 { ZoneChannel.powerOn with window := 40, gate := true, onSlots := 15 }).window = 20 := by decide

/-- spec/09 section 9.8 at 0.2: the LEFT PANEL's frame sets zone 2 to level 4, and its record says so. -/
theorem test_frame_on_the_wire :
    (match execAll (writeEvents 0 .leftPanel 0x10 [2, 4]) ready with
      | .next t => ((t.level ⟨.left, .neck⟩).value, (t.results.get .leftPanel))
      | _ => (0, LastResult.powerOn)) = (4, ⟨.ok, some 0x10, some .left⟩) := by decide +kernel

/-- spec/09 section 9.8 at 60.0: a read address after START answers the last result in five bytes, without the check byte. -/
theorem test_last_result_response :
    ((after (.transactionStart 0xA5) { ready with results := ready.results.set .rightPanel ⟨.ok, some 0x10, some .right⟩ }).bus.response.take 6)
      = [5, 0, 0, 1, 0x10, 1] := by decide +kernel

/-- spec/01 R4, R5: levels above the range are CLAMPED, a panel may not set the other seat. -/
theorem test_set_zone_results :
    ((after (.setZone .gateway 0 9) ready).results.gateway.result, ((after (.setZone .gateway 0 9) ready).level z0).value,
      (after (.setZone .leftPanel 5 1) ready).results.leftPanel.result) = (.clamped, 5, .denied) := by decide +kernel

/-- spec/07 R137: program 0 started in an OCCUPIED seat asks for its first fill, 240 scaled by 80 %. -/
theorem test_start_program_zero :
    let t := after (.startProgram .gateway 0 0 0) (seated .occupied)
    ((t.cursor .left).state, (t.cursor .left).phase, (t.cursor .left).effTarget, (t.cursor .left).seconds) =
      (.running, .filling, 192, 1200) := by decide +kernel

/-- spec/06 section 6.3: a record struck once is corrected by a read, struck twice it fails. -/
theorem test_checked_reads :
    let s := ready.putRam 64 ⟨some dwellStep, 1⟩
    let u := ready.putRam 64 ⟨some dwellStep, 2⟩
    (((after (.readStep .gateway 64) s).ramRecord 64).weight, (after (.readStep .gateway 64) s).log.count,
      ((after (.readStep .gateway 64) u).ramRecord 64).weight, (after (.readStep .gateway 64) u).log.flag) =
      (0, 1, 2, true) := by decide +kernel

/-- spec/10 R188: priority order, kinds counted from 1: RETENTION is taken first. -/
theorem test_take_notice_retention :
    (answerTakeNotice .gateway (changeBand .shed ready)).2 = [0, 1, 2] ∧
    (answerTakeNotice .gateway (answerTakeNotice .gateway (changeBand .shed ready)).1).2 = [0, 2, 2, 1, 0] := by
  decide +kernel

/-- spec/04 R62's hysteresis. -/
theorem test_band_hysteresis :
    classify .normal 110 = .normal ∧ classify .normal 109 = .shed ∧ classify .shed 114 = .shed ∧ classify .shed 115 = .normal ∧
    classify .shed 89 = .stop ∧ classify .stop 94 = .stop ∧ classify .stop 95 = .shed := by decide

/-! ## Witnesses: for each statement with hypotheses, a state and operands that meet them, clause by clause -/

/-- An address that is none of the six. -/
theorem strange_address_is_no_address : ∀ m d, (0xA6 : Byte) ≠ addressByte 0 m d := by
  intro m d; cases m <;> cases d <;> decide

/-- The bytes of a GATEWAY frame after its address byte, at ADS 00. -/
def frame (code : Byte) (data : List Byte) : List Byte := frameBytes 0 .gateway code data

/-- A panel cannot reach CONFIG; the GATEWAY has rights over everything. -/
theorem witness_gateway_may_do_all :
    ready.onBus ∧ ready.stored ∧
    ([Region.leftSeat, .rightSeat, .store, .budget, .config, .access].all fun r =>
      ready.mayWrite .gateway r && ready.mayRead .gateway r) = true := by decide

theorem witness_StepTakesFrontCommand :
    ({ ready with pending := [.busStop, .lossOfSupply] } : State).pending = .busStop :: [.lossOfSupply] := rfl

/-- Without supply, with it, and a zone at level 5 at the end of its step-down minute and of a slot, its gate on. -/
theorem witness_IdleStepPassesMillisecond :
    (ready.pending = [] ∧ ready.powered = true) ∧
    (({ ready with powered := false } : State).pending = [] ∧ ({ ready with powered := false } : State).powered = false) ∧
    (let s := { zoned 5 { ZoneChannel.powerOn with state := .heating, minuteMs := 59999, gate := true } with frameMs := 9 }
     s.pending = [] ∧ s.powered = true ∧ (s.level z0).value = 5 ∧ (s.zone z0).state = .heating ∧ 0 < s.stepDownTime ∧
       60000 ≤ (s.zone z0).minuteMs + 1 ∧ 10 ≤ s.frameMs + 1 ∧ (s.zone z0).gate = true) := by
  decide

/-- The lowest sample with supply, and one of each band. -/
theorem witness_PowerOnIsExact : 60 ≤ 60 ∧ 60 ≤ 94 ∧ 94 < 95 ∧ 95 < 115 ∧ 114 < 115 ∧ ¬ 115 < 115 := by decide

theorem witness_LossOfSupplyErases :
    ready.awake ∧ 59 < 60 ∧ ({ ready with powered := false } : State).powered = false ∧
    (∀ a l r v, Instr.busStop ≠ .powerOn a l r v) ∧ Instr.busStop ≠ .lossOfSupply := by
  refine ⟨by decide, by decide, rfl, ?_, by decide⟩
  intro a l r v h; cases h

theorem witness_WriteFrameIsItsCommand :
    writeFrameOf (.setZone .gateway 0 9) = some (.gateway, 0x10, [0, 9]) ∧ ready.reports = [] ∧ ready.releases = .select := by decide

theorem witness_ReadFrameIsItsCommand :
    readFrameOf (.readSeat .gateway 0 3) = some (.gateway, 0x19, [0, 3]) ∧ ready.reports = [] ∧ ready.releases = .select := by decide

theorem witness_StartOpensAndFrameByteIsKept :
    ready.onBus ∧ ready.ads = 0 ∧ (∀ m d, (0xA6 : Byte) ≠ addressByte 0 m d) ∧
    State.reset.awake ∧ State.reset.scanned = false :=
  ⟨by decide, rfl, strange_address_is_no_address, by decide, rfl⟩

/-- 34 bytes and 35 bytes held, and a bus in IDLE. -/
theorem witness_StartOpensAndFrameByteIsKept_bytes :
    (let s := receiving (List.replicate 34 0); s.awake ∧ s.bus.phase = .receiving ∧ s.bus.received.length < 35) ∧
    (let s := receiving (List.replicate 35 0); s.awake ∧ s.bus.phase = .receiving ∧ 35 ≤ s.bus.received.length) ∧
    ready.awake ∧ ready.bus.phase ≠ .receiving := by decide

theorem witness_BusStopRefusesInOrder_first_clause :
    ready.awake ∧ ready.bus.phase ≠ .receiving ∧
    (let s := receiving []; s.awake ∧ s.bus.received = [] ∧ s.bus.overflow = false) := by decide

/-- A frame with its bytes as given: how BUS_STOP judges it. -/
abbrev judged (bytes : List Byte) (misfit broken : Bool) (c : Option Command) : Prop :=
  let s := receiving bytes
  s.awake ∧ s.bus.phase = .receiving ∧ s.bus.master = some .gateway ∧ bytes ≠ [] ∧
  decide (s.bus.overflow = true ∨ bytes.length < 3 ∨ bytes.length ≠ (bytes.getD 1 0).toNat + 3) = misfit ∧
  decide (checkByte (addressByte s.ads .gateway false :: bytes.dropLast) ≠ bytes.getLastD 0) = broken ∧
  commandOfCode (bytes.headD 0).toNat = c

/-- Two bytes; a wrong check byte; no command; a read command; a command of another length; an acceptable frame. -/
theorem witness_BusStopRefusesInOrder :
    judged [0x10, 0] true true (some .setZone) ∧ judged [0x10, 0, 0] false true (some .setZone) ∧
    judged (frame 0xFF []) false false none ∧ judged (frame 0x70 []) false false (some .readResult) ∧
    judged (frame 0x10 [0]) false false (some .setZone) ∧ judged (frame 0x10 [0, 3]) false false (some .setZone) ∧
    Command.isRead .readResult = true ∧ Command.isRead .setZone = false ∧ Command.dataLength .setZone = 2 := by
  refine ⟨?_, ?_, ?_, ?_, ?_, ?_, ?_, ?_, ?_⟩ <;> decide +kernel

theorem witness_RepeatedStartCases :
    ready.awake ∧ ready.bus.phase = .idle ∧
    (let s := receiving [0x70]; s.awake ∧ s.bus.phase = .receiving ∧ s.bus.master = some .gateway ∧
      s.bus.received.length < 3 ∧ s.bus.master ≠ some .leftPanel ∧ s.ads = 0) ∧
    (let s := sending 1 false; s.awake ∧ s.bus.phase = .sending ∧ s.bus.master = some .gateway) ∧
    (∀ m d, (0xA6 : Byte) ≠ addressByte 0 m d) :=
  ⟨by decide, by decide, by decide, by decide, strange_address_is_no_address⟩

/-- Requests: two bytes; a wrong check byte; no command; a write command; a read command of another length; an acceptable one. -/
theorem witness_RepeatedStartCases_requests :
    judged [0x19, 0] true true (some .readSeat) ∧ judged [0x70, 0, 0] false true (some .readResult) ∧
    judged (frame 0xFF []) false false none ∧ judged (frame 0x10 [0, 3]) false false (some .setZone) ∧
    judged (frame 0x19 [0]) false false (some .readSeat) ∧ judged (frame 0x19 [0, 3]) false false (some .readSeat) ∧
    Command.isRead .setZone = false ∧ Command.isRead .readSeat = true ∧ Command.dataLength .readSeat = 2 := by
  refine ⟨?_, ?_, ?_, ?_, ?_, ?_, ?_, ?_, ?_⟩ <;> decide +kernel

/-- The GATEWAY's frame in progress, a line low for `ms` of the 30 that the parameter allowed. -/
def held (ms : Nat) : State :=
  { ready with bus := { (receiving [0x10]).bus with low := some { time := ms, limit := 30 } } }

/-- The last byte, the byte after it, a released line, and no response; a line low for 29 ms and for 30. -/
theorem witness_ResponseBytesAndTimeouts :
    (let s := sending 2 false; s.awake ∧ s.bus.phase = .sending ∧ s.bus.released = false ∧ s.bus.sent < s.bus.response.length) ∧
    (let s := sending 3 false; s.awake ∧ s.bus.phase = .sending ∧ s.bus.released = false ∧ s.bus.sent = s.bus.response.length) ∧
    (let s := sending 1 true; s.awake ∧ s.bus.phase = .sending ∧ s.bus.released = true) ∧
    ready.awake ∧ ready.bus.phase ≠ .sending ∧ ready.bus.time < 750 ∧ ready.bus.phase = .idle ∧ ready.bus.low = none ∧
    (let s := { ready with bus := { ready.bus with time := 750 } }; s.awake ∧ 750 ≤ s.bus.time) ∧
    (let s := held 29; s.awake ∧ s.bus.phase ≠ .idle ∧ ∀ l, s.bus.low = some l → l.time < l.limit) ∧
    (let s := held 30; s.awake ∧ s.bus.phase ≠ .idle ∧ s.bus.low = some ⟨30, 30⟩ ∧ 30 ≤ 30) := by
  refine ⟨by decide, by decide, by decide, by decide, by decide, by decide, by decide, by decide, by decide,
    ⟨by decide, by decide, ?_⟩, by decide⟩
  intro l h; cases h; decide

/-- spec/09 section 9.8: with a limit of 30 ms a frame is lost at 30 ms of a low line and not before; a limit written meanwhile
applies from the next START. -/
theorem test_bus_low_timeout :
    (after .busLowTimeout (tick (held 28))).bus.phase = .receiving ∧ (after .busLowTimeout (tick (held 29))).bus.phase = .idle ∧
    (let s := (held 29).putParam 59 40
     (after .busLowTimeout (tick s)).bus.phase = .idle ∧ (after (.frameByte 7) s).bus.low = some ⟨0, 40⟩) ∧
    (after .busStop (held 30)).bus.low = none := by decide +kernel

/-- Targets just beyond the last zone, fan, seat and cell; the RIGHT seat's first zone, which the LEFT PANEL may not set; CONFIG,
which it may not read. -/
theorem witness_RefusalsChangeNothing :
    ready.onBus ∧
    targetSeat (.setSupport .gateway 0 11 0) = none ∧ targetSeat (.setSupport .gateway 1 12 0) = some .right ∧
    ([Instr.setZone .gateway 10 0, .setFan .gateway 4 0, .setSupport .gateway 2 12 0, .setSupport .gateway 0 11 0,
      .setSupport .gateway 0 16 0, .pause .gateway 2].all fun i => (writeFrameOf i).isSome && namesNothing i) = true ∧
    writeFrameOf (.setZone .leftPanel 5 1) = some (.leftPanel, 0x10, [5, 1]) ∧
    Region.rightSeat ∈ writeRegions (.setZone .leftPanel 5 1) ∧ ready.mayWrite .leftPanel .rightSeat = false ∧
    readFrameOf (.readParameter .leftPanel 0) = some (.leftPanel, 0x41, [0]) ∧
    readRegion (.readParameter .leftPanel 0) = some .config ∧ ready.mayRead .leftPanel .config = false := by decide

/-- An inactive seat; an active one with level 0 and with level 5; a zone without reading, one in DEGRADED, one in closed loop. -/
theorem witness_SetZoneStores :
    ready.onBus ∧ ready.mayWrite .gateway z0.seat.region = true ∧ ready.active z0.seat = false ∧
    (let s := zoned 3 ZoneChannel.powerOn
     s.onBus ∧ s.mayWrite .gateway z0.seat.region = true ∧ s.active z0.seat = true ∧ (s.zone z0).temp = none ∧
       min 5 (0 : Byte).toNat = 0 ∧ min 5 (5 : Byte).toNat ≠ 0) ∧
    (let s := zoned 3 { ZoneChannel.powerOn with state := .degraded, temp := some 300 }
     s.active z0.seat = true ∧ (s.zone z0).state = .degraded) ∧
    (let s := zoned 3 { ZoneChannel.powerOn with state := .off, temp := some 300 }
     s.onBus ∧ (s.zone z0).temp = some 300 ∧ s.active z0.seat = true ∧ (s.zone z0).state ≠ .degraded) := by decide

/-- At the limit, just below it, at the edge of the limit region, just below that. -/
theorem witness_ControlLawIsTheManuals :
    ((450 : Nat) : Int) ≤ 450 ∧ ((449 : Int) < (450 : Nat) ∧ ((450 : Nat) : Int) - 20 ≤ 449) ∧
    ((430 : Int) < (450 : Nat) ∧ ((450 : Nat) : Int) - 20 ≤ 430) ∧ (429 : Int) < ((450 : Nat) : Int) - 20 := by decide

theorem witness_SetFanStores :
    ready.onBus ∧ ready.mayWrite .leftPanel f0.seat.region = true ∧ (fanned FanChannel.powerOn).active f0.seat = true ∧
    (fanned FanChannel.powerOn).onBus := by decide

/-- The LEFT support cell L0 with a setpoint of 200, nobody asking for the pump. -/
def supported (o : Occupancy) : State := (seated o).setSetpoint .left .l0 ⟨200, .gateway⟩

/-- The LEFT regulator's fill of L0 in FILLING from p0, its timers run out, the LEFT manifold at `m`; L0 has a setpoint of 200. -/
def supportFill (p0 : Nat) : Holder :=
  { entry := leftSupport, p0 := some p0, riseTimer := some 0, fillTimer := some 0, elapsed := 0 }

def lifting (p0 m : Nat) : State :=
  ((supported .occupied).modRegulator .left fun g => { g with service := .filling .l0, needs := ⟨.fill, .held, .held, .held⟩ }).modPneu
    fun p => { p with holder := some (supportFill p0), manifold := ⟨m, 0⟩ }

/-- A setpoint changed in the middle of the cell's own fill. -/
theorem witness_SetSupportStores_served :
    (let s := lifting 180 199
     s.onBus ∧ s.mayWrite .gateway Seat.left.region = true ∧ s.faultMark .left .l0 = false ∧
       s.pneu.holder = some (supportFill 180) ∧ (supportFill 180).p0 = some 180 ∧
       (supportFill 180).entry.requester = .support .left ∧ (s.regulator .left).service.cell = some .l0 ∧
       s.need .left .l0 = .fill ∧ (s.seat .left).occupancy ≠ .empty ∧
       min 350 (199 : Half).toNat < (s.setpoint .left .l0).value ∧ min 350 (201 : Half).toNat ≠ (s.setpoint .left .l0).value) ∧
    (lifting 180 199).queueLaws := by
  refine ⟨by decide, by decide, by decide, ?_, by decide, by decide⟩
  intro h e; cases e; decide

/-- spec/01 R7: after a SET SUPPORT to 150 the rise window's end of the same moment still faults the cell, as does a sample of 500;
once a millisecond has passed neither does. -/
theorem test_fault_after_set_support :
    let s := after (.setSupport .gateway 0 12 150) (lifting 180 199)
    let seen (t : State) := (t.setpoint .left .l0, t.faultMark .left .l0)
    seen s = (⟨150, .gateway⟩, false) ∧ seen (after .riseWindowExpiry s) = (⟨0, .device⟩, true) ∧
    seen (after (.manifoldSample 500 0) s) = (⟨0, .device⟩, true) ∧
    seen (after (.manifoldSample 500 0) (tick s)) = (⟨150, .gateway⟩, false) := by decide +kernel

/-- spec/01 R7: L1 is filled at once where a SET SUPPORT lowers L0 in the middle of its fill; one sample of 500 then faults both, and a
SET SUPPORT that lowers L1 as well does not lose L0's leak. -/
theorem test_fault_of_two_cells :
    let s := (((lifting 180 199).setSetpoint .left .l1 ⟨300, .gateway⟩).modRegulator .left fun g =>
        { g with needs := ⟨.fill, .fill, .held, .held⟩ }).modPneu fun p => { p with selector := .atRest .left }
    let t := after (.setSupport .gateway 0 12 150) ({ s with
      budget := { s.budget with ceiling := 300, cEff := 300, result := { s.budget.result with permitted := true } } })
    let marks (u : State) := (u.faultMark .left .l0, u.faultMark .left .l1)
    (t.pneu.holder.map fun h => (h.entry.cells, h.p0)) = some (cellBit .l1, some 199) ∧
    marks (after (.manifoldSample 500 0) t) = (true, true) ∧
    marks (after .riseWindowExpiry (after (.setSupport .gateway 0 13 100) t)) = (true, false) := by decide +kernel

theorem witness_SetSupportStores :
    (let s := ready.modRegulator .left fun g => { g with marks := ⟨true, false, false, false⟩ }
     s.onBus ∧ s.mayWrite .gateway Seat.left.region = true ∧ s.faultMark .left .l0 = true ∧ 0 < (1 : Half).toNat ∧
       (0 : Half).toNat = 0 ∧ (s.seat .left).occupancy = .empty) ∧
    (let s := supported .occupied
     s.onBus ∧ s.mayWrite .gateway Seat.left.region = true ∧ s.faultMark .left .l0 = false ∧
       (s.seat .left).occupancy ≠ .empty ∧ min 350 (199 : Half).toNat < (s.setpoint .left .l0).value ∧
       s.need .left .l0 = .held ∧ (s.regulator .left).service.cell ≠ some .l0 ∧ s.airQuiet = true) ∧
    (let s := (supported .occupied).modBudget fun b => { b with cEff := 8 }
     s.onBus ∧ s.mayWrite .gateway Seat.left.region = true ∧ (s.seat .left).occupancy ≠ .empty ∧
       (s.setpoint .left .l0).value < min 350 (201 : Half).toNat ∧ s.need .left .l0 = .held ∧
       (s.regulator .left).service = .free ∧ (holdCells.all fun k => (s.regulator .left).needs.get k != .fill) = true ∧
       s.airQuiet = true ∧ s.budget.cEff ≤ s.overhead) := by decide

theorem witness_ResetSeatsClears :
    ready.onBus ∧ ready.mayWrite .gateway .leftSeat = true ∧ ready.mayWrite .gateway .rightSeat = true ∧
    ready.overhead < ready.budget.cEff ∧
    (let s := ready.modBudget fun b => { b with cEff := 8 }; s.budget.cEff ≤ s.overhead) := by decide

/-- Program 4 starts at record 64, a step that only dwells. -/
def stocked (o : Occupancy) : State :=
  ((seated o).putEntry 4 ⟨true, 64, 20⟩).putRam 64 ⟨some dwellStep, 0⟩

theorem witness_StartProgramStarts :
    ready.onBus ∧ ready.mayWrite .gateway Seat.left.region = true ∧ 15 < (16 : Byte).toNat ∧ (15 : Byte).toNat ≤ 15 ∧
    (ready.dirEntry 15).valid = false ∧ (ready.dirEntry 0).valid = true ∧ ready.active .left = false ∧
    (let s := (stocked .occupied).modCursor .left fun c => { c with state := .ending }
     s.onBus ∧ (s.dirEntry 4).valid = true ∧ s.active .left = true ∧ (s.cursor .left).state = .ending) ∧
    (let s := stocked .occupied
     s.onBus ∧ (s.dirEntry 4).valid = true ∧ s.active .left = true ∧ (s.cursor .left).state ≠ .ending ∧
       ¬ (s.dirEntry 4).first.toNat < 64 ∧ s.ramRecord (s.dirEntry 4).first = ⟨some dwellStep, 0⟩ ∧
       dwellStep.vent = 0 ∧ dwellStep.fill = 0 ∧ 0 < dwellStep.dwell ∧ s.airQuiet = true) := by decide

theorem witness_AdjustProgramStores : ready.onBus ∧ ready.mayWrite .rightPanel Seat.right.region = true := by decide

/-- The LEFT cursor PAUSED in a phase. -/
def paused (p : Phase) (f : StepFields) : State := (playing p f).modCursor .left fun c => { c with state := .paused }

theorem witness_PauseAndResume :
    ready.onBus ∧ ready.mayWrite .gateway Seat.left.region = true ∧ (ready.cursor .left).state ≠ .running ∧
    (ready.cursor .left).state ≠ .paused ∧
    (let s := playing .dwell dwellStep
     s.onBus ∧ s.mayWrite .gateway Seat.left.region = true ∧ (s.cursor .left).state = .running ∧
       (s.cursor .left).phase = .dwell) ∧
    (let s := paused .dwell dwellStep
     s.onBus ∧ s.mayWrite .gateway Seat.left.region = true ∧ (s.cursor .left).state = .paused ∧
       (s.cursor .left).phase = .dwell) ∧
    (let s := paused .vent fillStep
     s.onBus ∧ s.mayWrite .gateway Seat.left.region = true ∧ (s.cursor .left).state = .paused ∧
       (s.cursor .left).phase = .vent ∧ (s.cursor .left).copy = some fillStep ∧ fillStep.vent ≠ 0 ∧ s.airQuiet = true) := by
  decide

/-- One vent operation of an owner, its time run out. -/
def venting (o : VentOwner) (s : State) : State := s.modPneu fun p => { p with vents := [⟨o, 0x0FFF, 0⟩] }

/-- A fill of the RIGHT cursor in FILLING, a request of its regulator behind it: the RIGHT seat has the pump. -/
def rightBusy (s : State) : State :=
  s.modPneu fun p => { p with
    holder := some { entry := rightMassage false, p0 := some 40, riseTimer := none, fillTimer := some 8000, elapsed := 0 }
    queue := [rightSupport] }

/-- Program 4 over a cursor at its fill, the RIGHT regulator waiting; over a PAUSED one; a first step of ROM, one that vents, one that is
BLANK, and ones that fill behind the RIGHT seat's grant and alone in a starved part. -/
theorem witness_StartProgramStarts_steps :
    (let s := ((filling (some 40) 55).modPneu fun p => { p with queue := [rightSupport] }).putEntry 4 ⟨true, 0, 20⟩
     s.onBus ∧ (s.dirEntry 4).valid = true ∧ (s.dirEntry 4).first.toNat < 64 ∧ s.active .left = true ∧
       (s.cursor .left).state = .running ∧ (s.cursor .left).phase = .filling ∧ s.queueLaws) ∧
    (let s := (paused .vent fillStep).putEntry 4 ⟨true, 64, 20⟩
     s.onBus ∧ (s.dirEntry 4).valid = true ∧ s.active .left = true ∧ (s.cursor .left).state ≠ .ending ∧
       s.ramRecord 64 = ⟨none, 0⟩ ∧ s.airQuiet = true ∧ (s.putRam 64 ⟨some fillStep, 1⟩).ramRecord 64 = ⟨some fillStep, 1⟩ ∧
       fillStep.vent ≠ 0) ∧
    (let s := rightBusy ((stocked .occupied).putRam 64 ⟨some { fillStep with vent := 0 }, 0⟩)
     s.onBus ∧ s.active .left = true ∧ fillStep.fill ≠ 0 ∧ (∃ h, s.pneu.holder = some h ∧ h.entry.requester ≠ .massage .left) ∧
       s.pneu.queue ≠ [] ∧ ∀ q ∈ s.pneu.queue, q.requester ≠ .massage .left) ∧
    (let s := ((stocked .occupied).putRam 64 ⟨some { fillStep with vent := 0 }, 0⟩).modBudget fun b => { b with cEff := 8 }
     s.onBus ∧ s.active .left = true ∧ s.airQuiet = true ∧ s.budget.cEff ≤ s.overhead) := by
  refine ⟨⟨by decide, by decide, by decide, by decide, by decide, by decide, by decide, by decide, ?_, by decide, by decide⟩,
    by decide, ⟨by decide, by decide, by decide, ⟨_, rfl, by decide⟩, by decide, by decide⟩, by decide⟩
  intro h e; cases e; decide

/-- The LEFT cursor's fill held with the RIGHT regulator's request behind it, and its request behind the RIGHT seat's grant. -/
theorem witness_PauseAndResume_fills :
    (let s := playing .vent fillStep
     s.onBus ∧ s.mayWrite .gateway Seat.left.region = true ∧ (s.cursor .left).state = .running ∧
       (s.cursor .left).phase = .vent) ∧
    (let s := (filling (some 40) 55).modPneu fun p => { p with queue := [rightSupport] }
     s.onBus ∧ s.mayWrite .gateway Seat.left.region = true ∧ (s.cursor .left).state = .running ∧
       (s.cursor .left).phase = .filling ∧ s.queueLaws) ∧
    (let s := rightBusy (paused .fillWait fillStep)
     s.onBus ∧ s.mayWrite .gateway Seat.left.region = true ∧ (s.cursor .left).state = .paused ∧
       (s.cursor .left).phase = .fillWait ∧ (s.cursor .left).copy = some fillStep ∧ fillStep.fill ≠ 0 ∧
       (∃ h, s.pneu.holder = some h ∧ h.entry.requester ≠ .massage .left) ∧ s.pneu.queue ≠ [] ∧
       ∀ e ∈ s.pneu.queue, e.requester ≠ .massage .left) ∧
    (let s := (paused .filling fillStep).modBudget fun b => { b with cEff := 8 }
     s.onBus ∧ s.mayWrite .gateway Seat.left.region = true ∧ (s.cursor .left).state = .paused ∧
       (s.cursor .left).phase = .filling ∧ (s.cursor .left).copy = some fillStep ∧ s.airQuiet = true ∧
       s.budget.cEff ≤ s.overhead) := by
  refine ⟨by decide, ⟨by decide, by decide, by decide, by decide, by decide, by decide, ?_, by decide, by decide⟩,
    ⟨by decide, by decide, by decide, by decide, by decide, by decide, ⟨_, rfl, by decide⟩, by decide, by decide⟩, by decide⟩
  intro h e; cases e; decide

theorem witness_StopProgramEnds :
    ready.onBus ∧ (ready.cursor .left).state = .idle ∧
    (let s := ready.modCursor .left fun c => { c with state := .fault }
     s.onBus ∧ s.mayWrite .gateway Seat.left.region = true ∧ (s.cursor .left).state = .fault) ∧
    (let s := playing .dwell dwellStep
     s.onBus ∧ s.mayWrite .gateway Seat.left.region = true ∧ (s.cursor .left).state = .running ∧ s.airQuiet = true) := by
  decide

/-- A program that waits with its request in a lawful queue, and one that fills. -/
theorem witness_StopProgramEnds_withdraws :
    (let w := playing .fillWait dwellStep
     let s : State := { w with pneu := { w.pneu with queue := [⟨.massage .left, 1, 90, false⟩] } }
     s.onBus ∧ s.mayWrite .gateway Seat.left.region = true ∧ (s.cursor .left).state = .running ∧
       (s.cursor .left).phase = .fillWait ∧ s.queueLaws ∧ s.isQueued (.massage .left) = true) ∧
    (let s := filling (some 40) 90
     s.onBus ∧ s.mayWrite .gateway Seat.left.region = true ∧ (s.cursor .left).state = .running ∧
       (s.cursor .left).phase = .filling ∧ s.queueLaws ∧ (s.heldBy (.massage .left)).isSome = true) := by
  unfold State.queueLaws; decide

/-- The LEFT zone 0 in its window, its count as given; 13 and 14 of a rating of 45 lie each side of 30 %. -/
def windowed (openLoad : Nat) : State :=
  zoned 3 { ZoneChannel.powerOn with state := .heating, request := 40, grant := 40, window := 40, gate := true, unjudged := true
                                     openLoad := openLoad }

/-- A ceiling at the overhead and one above it. -/
theorem witness_SetCeilingStores :
    ready.onBus ∧ ready.mayWrite .gateway .budget = true ∧
    min (min 600 (8 : Half).toNat) ready.bandCap - 20 * ready.budget.derate ≤ ready.overhead ∧
    ready.overhead < min (min 600 (9 : Half).toNat) ready.bandCap - 20 * ready.budget.derate ∧
    ready.pneu.holder = none ∧ (allocate ready.passInput).permitted = false := by decide

/-- A ceiling at the overhead after a FULL pass, and one that leaves it FULL; a zone's grant of 40 that the first lowers, and one of 0
that the second raises. -/
theorem witness_SetCeilingStores_handed :
    (let s := windowed 0
     let low := { s with budget := { s.budget with cEff := 8 } }
     let high := { s with budget := { s.budget with cEff := 600 } }
     let bare := (s.setZone z0 { s.zone z0 with grant := 0 }).passInput
     s.onBus ∧ s.mayWrite .gateway .budget = true ∧ s.pneu.holder = none ∧ s.budget.result.status = .full ∧
       (allocate low.passInput).permitted = false ∧ (allocate low.passInput).status ≠ .full ∧
       ((allocate low.passInput).grants.get .left).get .cushion < (s.zone z0).grant ∧
       (allocate high.passInput).status = .full ∧ 0 < ((allocate bare).grants.get .left).get .cushion) := by decide +kernel

/-- The cabin of section 4.7 at the overhead, just above it, and at the caps it leaves room under. -/
theorem witness_PassFitsCeiling :
    (cabin 8).cEff ≤ (cabin 8).overhead ∧ (cabin 9).overhead < (cabin 9).cEff ∧ (allocate (cabin 20)).fanCap < 3 ∧
    (allocate (cabin 240)).dutyCap < 100 := by decide +kernel

theorem witness_PlainReadsAnswer :
    ready.onBus ∧ ready.mayRead .rightPanel Seat.left.region = true ∧ 1 < (2 : Byte).toNat ∧
    ready.mayRead .leftPanel .budget = true ∧ ready.mayRead .gateway .config = true := by decide

/-- The GATEWAY's rights over both seats, BUDGET and CONFIG, with a fill under way, an entry queued and a vent running. -/
theorem witness_ReadFieldsAreListed :
    (let s := venting (.relief .left) (rightBusy ready)
     s.onBus ∧ s.mayRead .gateway Seat.left.region = true ∧ s.mayRead .gateway Seat.right.region = true ∧
       s.mayRead .gateway .budget = true ∧ s.mayRead .gateway .config = true) := by decide

/-- WRITE STEP's data for record 64 or another: kind, filled cells, target, next mode, repeat marker and count as given. -/
def data (i kind : Byte) (fill target : Half) (next rm rc : Byte) : StepData :=
  { index := i, kind := kind, vent := 0, fill := fill, target := target, dwell := 1, nextMode := next, nextIndex := 65,
    repeatMarker := rm, repeatTarget := 66, repeatCount := rc }

def badStep (d : StepData) : Bool :=
  decide (d.vent &&& 0xF000 ≠ 0 ∨ d.fill &&& 0xF000 ≠ 0 ∨ 1 < d.nextMode.toNat ∨
    (d.repeatMarker ≠ 0 ∧ (d.repeatCount = 0 ∨ 15 < d.repeatCount.toNat)))

theorem witness_StoreWritesAreExact :
    ready.onBus ∧ ready.stored ∧ ready.mayWrite .gateway .store = true ∧ (63 : Byte).toNat < 64 ∧ 64 ≤ (64 : Byte).toNat ∧
    badStep (data 64 1 0x1000 0 0 0 0) = true ∧ badStep (data 64 1 0 0 2 0 0) = true ∧ badStep (data 64 1 0 0 1 1 0) = true ∧
    badStep (data 64 1 0 0 1 1 16) = true ∧ badStep (data 255 1 0x0FFF 401 1 1 15) = false ∧
    badStep (data 64 1 0x0001 400 0 0 0) = false ∧
    15 < (16 : Byte).toNat ∧ (3 : Byte).toNat ≤ 3 ∧ 4 ≤ (4 : Byte).toNat ∧ (15 : Byte).toNat ≤ 15 ∧ 1 < (2 : Byte).toNat ∧
    (1 : Byte).toNat ≤ 1 := by decide

/-- Record 64 with a weight. -/
def struck (w : Nat) : State := ready.putRam 64 ⟨some dwellStep, w⟩

theorem witness_ReadStepChecks :
    ready.onBus ∧ ready.mayRead .leftPanel .store = true ∧ (63 : Byte).toNat < 64 ∧ 64 ≤ (64 : Byte).toNat ∧
    ((struck 0).onBus ∧ ((struck 0).ramRecord 64).weight = 0) ∧ ((struck 1).onBus ∧ ((struck 1).ramRecord 64).weight = 1) ∧
    ((struck 2).onBus ∧ 2 ≤ ((struck 2).ramRecord 64).weight) := by decide

/-- The LEFT PANEL without its rights over STORE and ACCESS. -/
def barred : State :=
  { ready with
    access := ready.access.set .leftPanel (((ready.access.get .leftPanel).set .store .none).set .access .write) }

theorem witness_PlainReadsAnswer_entries :
    barred.onBus ∧ barred.mayRead .leftPanel .store = false ∧ ready.onBus ∧ ready.mayRead .leftPanel .store = true ∧
    15 < (16 : Byte).toNat ∧ (15 : Byte).toNat ≤ 15 := by decide

theorem witness_ClearDiagnosticsClears :
    ready.onBus ∧ ready.mayWrite .gateway .config = true ∧ ready.budget.derate = 0 ∧
    (let s := ready.modBudget fun b => { b with derate := 1, cEff := 100 }
     s.onBus ∧ s.mayWrite .gateway .config = true ∧ s.budget.derate ≠ 0 ∧ s.airQuiet = true) ∧
    (let s := ready.modBudget fun b => { b with derate := 2, cEff := 80, overdrawRun := 2 }
     s.onBus ∧ s.mayWrite .gateway .config = true ∧ s.airQuiet = true ∧ 2 ≤ s.budget.overdrawRun ∧
       0 < s.supply.itotCount + 1 ∧
       s.budget.peak + s.overdrawMargin < min 1000 ((s.supply.itotSum + 39) / (s.supply.itotCount + 1))) := by decide

/-- spec/04 R67: a clear taken before the scan that takes a derate step leaves d at 1, one taken after it at 0, and one taken a
millisecond before it leaves the scan the first of a new run. -/
theorem test_clear_with_derate_step :
    let s := ready.modBudget fun b => { b with derate := 2, cEff := 80, overdrawRun := 2 }
    let clear := Instr.clearDiagnostics .gateway
    let scan := Instr.scanCompletion (.both (Five.all 250)) 100 1
    let seen (t : State) := (t.budget.derate, t.budget.overdrawRun)
    seen (after scan (after clear s)) = (1, 0) ∧ seen (after clear (after scan s)) = (0, 0) ∧
    seen (after scan (tick (after clear s))) = (0, 1) := by decide +kernel

/-- The numbers at the edges of each clause; the step-down time 0 and 10; parking LAST and NONE. -/
theorem witness_WriteParameterStores :
    ready.onBus ∧ ready.stored ∧ ready.mayWrite .gateway .config = true ∧ 59 < (60 : Byte).toNat ∧ (59 : Byte).toNat ≤ 59 ∧
    ([0, 12, 23, 27, 43, 47, 51, 54, 55, 58, 59].all fun n : Nat =>
      n ≤ 12 || (23 ≤ n && n ≤ 27) || n == 43 || (47 ≤ n && n ≤ 51) || n == 54 || n == 55 || n == 58 || n == 59) = true ∧
    ([28, 37, 39, 41, 45, 46].all fun n : Nat => (28 ≤ n && n ≤ 37) || (39 ≤ n && n ≤ 41) || n == 45 || n == 46) = true ∧
    (42 : Byte).toNat = 42 ∧ (52 : Byte).toNat = 52 ∧ (44 : Byte).toNat = 44 ∧ (38 : Byte).toNat = 38 ∧
    (53 : Byte).toNat = 53 ∧ nearestAllowed (paramRange 53) 0 = 0 ∧ nearestAllowed (paramRange 53) 1 ≠ 0 ∧
    nearestAllowed (paramRange 38) 5 = 0 ∧ nearestAllowed (paramRange 38) 6 ≠ 0 ∧
    (let s := zoned 5 { ZoneChannel.powerOn with minutes := 10 }; (s.level z0).value = 5 ∧ 10 ≤ (s.zone z0).minutes) := by
  decide

/-- The LEFT zone 0 in HEATING at 41.0 °C, level 3: the limit 450 leaves its state, 420 brings it within 20 of the limit. -/
theorem witness_WriteParameterStores_limits :
    (13 : Byte).toNat = 13 + zoneNumber z0 ∧ (ready.zone z0).state ≠ .heating ∧ (ready.zone z0).state ≠ .limit ∧
    (let s := zoned 3 { ZoneChannel.powerOn with state := .heating, temp := some 410, request := 5, grant := 5 }
     s.onBus ∧ s.stored ∧ (s.zone z0).state = .heating ∧ (s.zone z0).temp = some 410 ∧ (s.zone z0).latch = false ∧
       s.active z0.seat = true ∧ (s.level z0).value ≠ 0 ∧ s.airQuiet = true ∧
       (controlLaw (s.targetTemp 3) (s.baseDuty 3) s.gain s.limitDuty 450 410).2 = .heating ∧
       (controlLaw (s.targetTemp 3) (s.baseDuty 3) s.gain s.limitDuty 450 410).1 < (s.zone z0).grant ∧
       (controlLaw (s.targetTemp 3) (s.baseDuty 3) s.gain s.limitDuty 420 410).2 ≠ .heating) := by decide

/-- The LEFT seat's override, OFF and to be set ON, ON and to be set OFF over an input that shows the seat vacant. -/
theorem witness_WriteParameterStores_overrides :
    (56 : Byte).toNat = overrideNumber .left ∧ ready.override .left = false ∧ nearestAllowed (paramRange 56) 1 = 1 ∧
    nearestAllowed (paramRange 56) 0 = 0 ∧ ((seated .occupied).seat .left).occupancy = .occupied ∧
    (let s := (seated .occupied).putParam 56 1
     s.onBus ∧ s.stored ∧ s.override .left = true ∧ (s.seat .left).occupancy = .occupied ∧
       (s.seat .left).debounced = false) ∧
    (let s := ready.putParam 56 1; s.override .left = true ∧ (s.seat .left).occupancy ≠ .occupied) := by decide

theorem witness_ReadParameterAnswers :
    ready.onBus ∧ ready.mayRead .leftPanel .config = false ∧ ready.mayRead .gateway .config = true ∧ 59 < (60 : Byte).toNat ∧
    (59 : Byte).toNat ≤ 59 := by decide

theorem witness_WriteAccessStores :
    ready.onBus ∧ ready.mayWrite .gateway .access = true ∧ 2 < (3 : Byte).toNat ∧ 5 < (6 : Byte).toNat ∧ 3 < (4 : Byte).toNat ∧
    (3 : Byte).toNat ≤ 3 ∧ masterOfCode 2 = some .rightPanel ∧ regionOfCode 5 = some .access ∧
    rightOfCode 3 = some .readWrite ∧ ¬ (Master.rightPanel = .gateway ∧ Region.access = .access) := by decide

theorem witness_ReadAccessAnswers :
    barred.onBus ∧ barred.mayRead .leftPanel .access = false ∧ ready.onBus ∧ ready.mayRead .leftPanel .access = true := by
  decide

theorem witness_SetNoticeMaskReplaces : ready.onBus ∧ (0x1FFF : Half).toNat < 8192 ∧ 8192 ≤ (0x2000 : Half).toNat := by decide

theorem soundBoxes (b : Master → NoticeBox) (h : ∀ m, (b m).exact ∧ ∃ n, (b m).pending = [n] ∨ (b m).pending = []) :
    ∀ m, (b m).exact ∧ ranksRise (b m).pending := by
  intro m
  obtain ⟨hx, n, h | h⟩ := h m <;> refine ⟨hx, ?_⟩ <;> simp [h, ranksRise]

theorem ready_sound : ready.noticesSound := by
  refine soundBoxes ready.notices.get ?_
  intro m
  cases m
  · exact ⟨by decide, ⟨.retention, none, .nothing⟩, .inl rfl⟩
  · exact ⟨by decide, default, .inr rfl⟩
  · exact ⟨by decide, default, .inr rfl⟩

theorem witness_TakeNoticeTakes :
    ready.onBus ∧ ready.noticesSound ∧ (∀ n ∈ (ready.notices.get .leftPanel).pending,
      (ready.notices.get .leftPanel).mask.getLsbD n.kind.bit = true) ∧
    (let n : Notice := ⟨.retention, none, .nothing⟩
     let box := ready.notices.get .gateway
     n ∈ box.pending ∧ box.mask.getLsbD n.kind.bit = false ∧
       ∀ p ∈ box.pending, box.mask.getLsbD p.kind.bit = false → n.rank ≤ p.rank) :=
  ⟨by decide, ready_sound, by decide, by decide⟩

/-- The LEFT seat in an occupancy state, its debounced occupancy and raw level as given, the timer running. -/
def bouncing (o : Occupancy) (debounced raw : Bool) : State :=
  (seated o).modSeat .left fun r => { r with debounced := debounced, rawLevel := raw, debounceTimer := some 0 }

/-- What `effective` of the statement says, of the LEFT seat. -/
def effectiveAt (s : State) : Bool :=
  (s.seat .left).debounceTimer == some 0 && (s.seat .left).rawLevel != (s.seat .left).debounced && !s.override .left

theorem witness_OccupancyFollowsItsInput :
    ready.awake ∧ ((ready.seat .left).rawLevel = false) ∧
    (let s := ready.modSeat .left fun r => { r with debounceTimer := some 1 }
     s.awake ∧ (s.seat .left).debounceTimer ≠ some 0) ∧
    (let s := bouncing .empty false false; s.awake ∧ (s.seat .left).debounceTimer = some 0 ∧
      (s.seat .left).rawLevel = (s.seat .left).debounced) ∧
    ([bouncing .standby true false, bouncing .occupied false true, bouncing .occupied true false, bouncing .vacating false true,
      bouncing .standby false true, bouncing .empty false true].all fun s => effectiveAt s && decide s.awake) = true := by
  decide

/-- A STANDBY seat about to be OCCUPIED with two zones of a level, the second without a reading and the first with one. -/
theorem witness_OccupancyFollowsItsInput_zones :
    (let z1 : ZoneId := ⟨.left, .backrest⟩
     let s := (((bouncing .standby false true).setLevel z0 ⟨3, .gateway⟩).setZone z0
       { ZoneChannel.powerOn with temp := some 300 }).setLevel z1 ⟨3, .gateway⟩
     s.awake ∧ effectiveAt s = true ∧ (s.zone z0).latch = false ∧ (s.zone z0).temp = some 300 ∧ (s.level z0).value ≠ 0 ∧
       (s.zone z0).state ≠ .degraded ∧ (s.zone z1).latch = false ∧ (s.level z1).value ≠ 0 ∧ (s.zone z1).temp = none ∧
       (s.zone z1).state ≠ .degraded ∧ s.airQuiet = true) := by decide

/-- spec/01 R9: a change of the input taken first restarts the debounce, and the expiry that falls together with it does nothing. -/
theorem test_input_change_before_debounce_expiry :
    let s := bouncing .occupied true false
    ((after (.debounceExpiry .left) s).seat .left).occupancy = .vacating ∧
    ((after (.debounceExpiry .left) (after (.occupancyInputChange .left true) s)).seat .left).occupancy = .occupied := by
  decide +kernel

/-- A VACATING LEFT seat at its timer's end, and a STANDBY one. -/
def vacating (s : State) : State := s.modSeat .left fun r => { r with occupancy := .vacating, timer := .vacancy 0 }

def clearing (s : State) : State := s.modSeat .left fun r => { r with occupancy := .standby, timer := .clear 0 }

theorem witness_VacancyDelayExpiryEntersStandby :
    ready.awake ∧ (ready.seat .left).occupancy ≠ .vacating ∧
    (let s := vacating (playing .dwell dwellStep)
     s.awake ∧ (s.seat .left).occupancy = .vacating ∧ (s.seat .left).timer = .vacancy 0 ∧ (s.cursor .left).state = .running) ∧
    (let s := vacating ready
     s.awake ∧ s.airQuiet = true ∧ (s.cursor .left).state = .idle) := by decide

theorem witness_ClearTimeExpiryEntersEmpty :
    ready.awake ∧ (ready.seat .left).occupancy ≠ .standby ∧
    (let s := clearing (supported .standby)
     s.awake ∧ (s.seat .left).occupancy = .standby ∧ (s.seat .left).timer = .clear 0 ∧ s.airQuiet = true) := by decide

/-- The LEFT zone 0 at level 4, in closed loop or DEGRADED with a streak; readings at and beyond the ends; a mean at and above the
peak and the margin. -/
theorem witness_ScanCompletionActs :
    ready.awake ∧ 0 < ready.supply.itotCount + 1 ∧
    (let s := zoned 4 { ZoneChannel.powerOn with state := .off, temp := some 300 }
     s.awake ∧ s.active z0.seat = true ∧ (s.zone z0).latch = false ∧ (s.level z0).value ≠ 0 ∧ (s.zone z0).state ≠ .degraded) ∧
    (let s := zoned 4 { ZoneChannel.powerOn with state := .degraded, streak := 1 }
     s.awake ∧ (s.zone z0).state = .degraded ∧ (s.zone z0).streak < 2) ∧
    (let s := zoned 4 { ZoneChannel.powerOn with state := .degraded, streak := 2 }
     s.awake ∧ (s.zone z0).state = .degraded ∧ 2 ≤ (s.zone z0).streak) ∧
    ((-400 : Int) ≤ -400 ∧ (1500 : Int) ≤ 1500 ∧ ¬ ((-400 : Int) ≤ -401) ∧ ¬ ((1501 : Int) ≤ 1500)) ∧
    (let s := ready.modBudget fun b => { b with overdrawRun := 2 }
     s.awake ∧ s.budget.peak + s.overdrawMargin < min 1000 ((s.supply.itotSum + 39) / (s.supply.itotCount + 1)) ∧
       s.budget.stepPeak = none ∧ 2 ≤ s.budget.overdrawRun ∧ s.airQuiet = true) ∧
    (let s := ready.modBudget fun b => { b with stepPeak := some 8 }
     s.awake ∧ s.budget.stepPeak = some 8 ∧
       8 + s.overdrawMargin < min 1000 ((s.supply.itotSum + 39) / (s.supply.itotCount + 1))) := by decide

/-- A window of 100 that ended as the next one opened: its judgement is due and the new window's gate is on. -/
def fullWindow (openLoad : Nat) : State :=
  (windowed openLoad).setZone z0 { (windowed openLoad).zone z0 with grant := 100, window := 100 }

theorem witness_WindowsAndCurrentsAreJudged :
    ready.awake ∧ (ready.zone z0).unjudged = false ∧ (ready.zone z0).carried = false ∧
    (let s := windowed 1
     s.awake ∧ (s.zone z0).unjudged = true ∧ (s.zone z0).openLoad < 2 ∧ 10 * 13 < 3 * s.rated z0 ∧ ¬ 10 * 14 < 3 * s.rated z0) ∧
    (let s := windowed 2; s.awake ∧ (s.zone z0).unjudged = true ∧ 2 ≤ (s.zone z0).openLoad) ∧
    (let s := after (.zoneFrameStart z0) (fullWindow 2)
     s.awake ∧ (s.zone z0).carried = true ∧ (s.zone z0).gate = true ∧ 2 ≤ (s.zone z0).openLoad) ∧
    (let s := windowed 0
     s.awake ∧ 10 * 67 ≤ 15 * s.rated z0 ∧ (s.zone z0).gate = true ∧ 15 * s.rated z0 < 10 * 68) ∧
    (ready.zone z0).gate = false := by decide

/-- spec/02 R36: a window of 100 keeps the gate on into the next frame, its end taken before that frame's start or after it. -/
theorem test_full_window_keeps_gate :
    ((after (.onWindowEnd z0 40) (fullWindow 1)).zone z0).gate = true ∧
    (let t := after (.onWindowEnd z0 40) (after (.zoneFrameStart z0) (fullWindow 1))
     ((t.zone z0).gate, (t.zone z0).openLoad, (t.zone z0).unjudged) = (true, 0, true)) ∧
    ((after (.onWindowEnd z0 40) (windowed 1)).zone z0).gate = false := by decide

/-- spec/02 R31, R37: a grant lowered to 40 at the frame boundary, after the 100 slots of the window; its end, taken after the frame
start, judges that window and leaves the new one as it runs. -/
theorem test_cut_full_window_is_judged :
    let s := (fullWindow 1).setZone z0 (cutWindow 40 { (fullWindow 1).zone z0 with onSlots := 100 })
    let t := after (.zoneFrameStart z0) s
    let u := (after (.onWindowEnd z0 13) t).zone z0
    (s.zone z0).gate = false ∧ u.openLoad = 2 ∧ (u.gate, u.window, u.unjudged, u.carried) = (true, 40, true, false) := by decide

/-- Level 3 does not count, levels 4 and 5 do with their minutes at the step-down time, and not with their count restarted. -/
theorem witness_StepDownLowersTheLevel :
    (windowed 0).awake ∧ ((windowed 0).level z0).value = 3 ∧
    ([4, 5].all fun l =>
      let s := zoned l { ZoneChannel.powerOn with state := .heating, minutes := 30 }
      decide (s.awake ∧ (s.level z0).value = l ∧ (s.zone z0).state = .heating ∧ 0 < s.stepDownTime ∧
        s.stepDownTime ≤ (s.zone z0).minutes)) = true ∧
    (let s := zoned 5 { ZoneChannel.powerOn with state := .heating, minutes := 29 }
     s.awake ∧ ¬ s.stepDownTime ≤ (s.zone z0).minutes) := by decide

/-- spec/01 R7: a SET ZONE taken first restarts the count, and the STEP_DOWN that falls together with it leaves the level. -/
theorem test_set_zone_before_step_down :
    let s := zoned 4 { ZoneChannel.powerOn with state := .heating, temp := some 300, minutes := 30 }
    ((after (.stepDown z0) s).level z0).value = 3 ∧
    ((after (.stepDown z0) (after (.setZone .gateway 0 5) s)).level z0).value = 5 := by decide +kernel

/-- spec/02 R42: a fault latch taken first does not leave the minutes at the step-down time. -/
theorem test_fault_before_step_down :
    let s := zoned 5 { ZoneChannel.powerOn with state := .heating, temp := some 300, minutes := 30, grant := 40, gate := true }
    let t := after (.stepDown z0) (after (.overcurrent z0 68) s)
    ((t.level z0).value, (t.zone z0).state, (t.zone z0).minutes) = (4, .fault, 0) := by decide +kernel

/-- The LEFT fan 0 running at level 1 after a number of retries, its tach watch run out and its clean run over. -/
def running (retries : Nat) : State :=
  fanned { FanChannel.powerOn with state := .run, demand := 2, granted := 1, retries := retries, tachWatch := some 0,
                                   cleanRun := 60000 }

/-- The LEFT fan 0 at the end of its retry wait. -/
def waiting : State := fanned { FanChannel.powerOn with state := .retryWait, retryTimer := some 0, retries := 2 }

theorem witness_FanEventsAct :
    (ready.awake ∧ (ready.fan f0).granted = 0 ∧ (ready.fan f0).state ≠ .run ∧ (ready.fan f0).state ≠ .retryWait) ∧
    ((running 2).awake ∧ ((running 2).fan f0).state = .run ∧ 1 ≤ ((running 2).fan f0).granted ∧
      ((running 2).fan f0).restarted = false ∧ ((running 2).fan f0).tachWatch = some 0 ∧ ((running 2).fan f0).retries < 3 ∧
      60000 ≤ ((running 2).fan f0).cleanRun) ∧
    ((running 3).awake ∧ ((running 3).fan f0).state = .run ∧ 3 ≤ ((running 3).fan f0).retries) ∧
    (waiting.awake ∧ waiting.onBus ∧ (waiting.fan f0).state = .retryWait ∧ (waiting.fan f0).retryTimer = some 0 ∧
      waiting.mayWrite .leftPanel f0.seat.region = true ∧ (after (.retryTimerExpiry f0) waiting).reports = [] ∧
      waiting.airQuiet = true ∧ waiting.active f0.seat = true ∧ (waiting.fanLevel f0).value ≠ (waiting.fan f0).demand) := by
  decide +kernel

/-- spec/03 R51: at the retry timer's end the output is not driven yet; it is once a millisecond has passed, and a SET FAN to 0 taken
before leaves the fan OFF. -/
theorem test_set_fan_after_retry_expiry :
    let t := after (.retryTimerExpiry f0) waiting
    ((t.fan f0).granted, (t.fan f0).driven, ((tick t).fan f0).driven) = (2, false, true) ∧
    (let u := after (.setFan .gateway 0 0) t
     ((u.fan f0).state, (u.fan f0).driven, (u.fan f0).retries) = (.off, false, 3)) := by decide +kernel

theorem witness_CeilingAndSupplyEventsAct_refresh :
    ready.awake ∧ ready.budget.refresh = none ∧
    (let s := ready.modBudget fun b => { b with refresh := some 0, ceiling := 300, cEff := 300 }
     s.awake ∧ s.budget.refresh = some 0) ∧
    (let s := ready.modBudget fun b => { b with refresh := some 1 }; s.awake ∧ s.budget.refresh ≠ some 0) := by decide

/-- spec/04 R60: with a SET CEILING taken first, the expiry that falls together with it does not happen. -/
theorem test_set_ceiling_before_refresh_expiry :
    let s := ready.modBudget fun b => { b with refresh := some 0, ceiling := 300, cEff := 300 }
    (after .ceilingRefreshExpiry s).budget.ceiling = 120 ∧
    (after .ceilingRefreshExpiry (after (.setCeiling .gateway 240) s)).budget.ceiling = 240 := by decide +kernel

/-- From NORMAL, 110 stays and 109 changes; 90 and 89 lie each side of STOP. -/
theorem witness_CeilingAndSupplyEventsAct :
    ready.awake ∧ 60 ≤ 60 ∧ classify ready.supply.band 110 = ready.supply.band ∧ classify ready.supply.band 109 = .shed ∧
    classify ready.supply.band 90 = .shed ∧ classify ready.supply.band 89 = .stop := by decide

/-- No fill; SWITCHING; a fill below its target of 240, at it, and at 499 and 500. -/
theorem witness_ManifoldSampleJudges :
    ready.awake ∧ ready.pneu.holder = none ∧ (∀ x, (ready.regulator x).cuts = Four.all none) ∧
    ((filling none 0).awake ∧ (filling none 0).pneu.holder = some (massageFill none) ∧ (massageFill none).p0 = none) ∧
    (let s := filling (some 40) 100
     s.awake ∧ s.pneu.holder = some (massageFill (some 40)) ∧ (massageFill (some 40)).p0 ≠ none ∧
       (massageFill (some 40)).entry.requester = .massage .left ∧ (massageFill (some 40)).entry.cells ≠ 0 ∧
       s.pneu.queue = [] ∧ (s.cursor .left).state = .running ∧ (s.cursor .left).phase = .filling ∧
       (s.cursor .left).effDwell ≠ 0 ∧ ∀ x, (s.regulator x).cuts = Four.all none) ∧
    (massageFill (some 40)).seat = .left ∧ (massageFill (some 40)).entry.target = 240 ∧
    min 1000 (239 : Int).toNat < 240 ∧ 240 ≤ min 1000 (240 : Int).toNat ∧ min 1000 (499 : Int).toNat < 500 ∧
    500 ≤ min 1000 (500 : Int).toNat := by
  refine ⟨by decide, rfl, ?_, by decide, ⟨by decide, rfl, by decide, rfl, by decide, rfl, rfl, rfl, by decide, ?_⟩, rfl, rfl,
    by decide, by decide, by decide, by decide⟩ <;> intro x <;> cases x <;> rfl

/-- The fill at 500 with an entry of the other seat behind it. -/
theorem witness_ManifoldSampleJudges_queued :
    (let s := (filling (some 40) 100).modPneu fun p => { p with queue := [rightSupport] }
     s.awake ∧ s.pneu.holder = some (massageFill (some 40)) ∧ s.queueLaws ∧ ∀ e ∈ s.pneu.queue, e.requester.seat ≠ .left) := by
  refine ⟨by decide, rfl, ⟨by decide, by decide, ?_, by decide, by decide⟩, by decide⟩
  intro h e; cases e; decide

/-- The selector on its way to the LEFT seat. -/
def travelling (s : State) : State := s.modPneu fun p => { p with selector := .moving .left 0 }

/-- At rest, on its way with 1 ms to go, arriving with no grant; arriving at a grant with the manifold at 239, at the target of 240, and
at 500; and at a grant whose cells a RELIEF vent covers. -/
theorem witness_FillTimersAndArrival_arrival :
    (let s := ready.modPneu fun p => { p with selector := .atRest .left }; s.awake ∧ s.pneu.selector = .atRest .left) ∧
    (let s := ready.modPneu fun p => { p with selector := .moving .left 1 }; s.awake ∧ s.pneu.selector = .moving .left 1) ∧
    (let s := travelling ready; s.awake ∧ s.pneu.selector = .moving .left 0 ∧ s.pneu.holder = none) ∧
    ([239, 240, 499, 500].all fun m =>
      let s := travelling (filling none m)
      decide (s.awake ∧ s.pneu.selector = .moving .left 0 ∧ s.pneu.holder = some (massageFill none) ∧ (massageFill none).p0 = none ∧
        seatPos (massageFill none).seat = .left ∧ ventedCells s.pneu.vents .left &&& (massageFill none).entry.cells = 0 ∧
        s.manifoldOf .left = m ∧ (massageFill none).entry.target = 240 ∧ (massageFill none).entry.requester = .massage .left ∧
        (massageFill none).entry.cells ≠ 0 ∧ (s.cursor .left).state = .running ∧ (s.cursor .left).phase = .filling ∧
        (s.cursor .left).effDwell ≠ 0 ∧ s.pneu.queue = [])) = true ∧
    (let s := venting (.relief .left) (travelling (filling none 239))
     s.awake ∧ ventedCells s.pneu.vents .left &&& (massageFill none).entry.cells ≠ 0) := by decide

/-- A rise of 20 passes and one of 19 leaks; a fill with 20 to go is judged. -/
theorem witness_FillTimersAndArrival_timers :
    ready.awake ∧ ready.pneu.holder = none ∧ (∀ x, (ready.regulator x).cuts = Four.all none) ∧
    (let h := massageFill (some 220)
     h.p0 = some 220 ∧ h.riseTimer = some 0 ∧ h.fillTimer = some 0 ∧ h.entry.requester = .massage .left ∧
       220 + 20 ≤ h.entry.target ∧ 220 + 20 ≤ (filling (some 220) 240).manifoldOf h.seat ∧
       (filling (some 220) 239).manifoldOf .left < 220 + 20 ∧
       (filling (some 220) 239).pneu.holder = some h ∧ (filling (some 220) 240).pneu.holder = some h) ∧
    (massageFill (some 221)).entry.target < 221 + 20 ∧
    (let s := filling (some 220) 239
     s.awake ∧ s.pneu.queue = [] ∧ (s.cursor .left).state = .running ∧ (s.cursor .left).phase = .filling ∧
       (s.cursor .left).effDwell ≠ 0 ∧ ∀ x, (s.regulator x).cuts = Four.all none) := by
  refine ⟨by decide, rfl, ?_, by decide, by decide, ⟨by decide, rfl, rfl, rfl, by decide, ?_⟩⟩ <;> intro x <;> cases x <;> rfl

/-- spec/05 R103: a sample that ends a fill begins the next one at the seat, and the rise window's end that fell together with it does
not touch that one. -/
theorem test_sample_before_rise_expiry :
    let s := ((filling (some 40) 55).modPneu fun p =>
        { p with queue := [{ leftSupport with target := 300 }], selector := .atRest .left }).modBudget
      fun b => { b with result := { b.result with permitted := true } }
    let t := after (.manifoldSample 250 0) s
    (t.cursor .left).phase = .dwell ∧ (t.pneu.holder.map fun h => (h.entry.requester, h.p0)) = some (.support .left, some 250) ∧
    (after .riseWindowExpiry t) = t ∧ (after .maximumFillExpiry t) = t := by decide +kernel

/-- A fill at its target, at 499 and 500, one at its time's end, and a rise of 19 toward a target that asks for 20. -/
theorem witness_SupportFillsEnd :
    (let s := lifting 180 199
     s.awake ∧ s.pneu.holder = some (supportFill 180) ∧ (supportFill 180).p0 = some 180 ∧
       (supportFill 180).entry.requester = .support .left ∧ (s.regulator .left).service = .filling .l0 ∧
       (supportFill 180).entry.cells ≠ 0 ∧ s.pneu.queue = [] ∧ (∀ k, k ≠ .l0 → s.need .left k ≠ .fill) ∧
       (supportFill 180).fillTimer = some 0 ∧ (supportFill 180).riseTimer = some 0 ∧ (s.regulator .left).cuts = Four.all none ∧
       180 + 20 ≤ (supportFill 180).entry.target ∧ s.manifoldOf .left < 180 + 20) ∧
    (supportFill 180).entry.target ≤ min 1000 (200 : Int).toNat ∧ min 1000 (499 : Int).toNat < 500 ∧
    500 ≤ min 1000 (500 : Int).toNat := by
  refine ⟨⟨by decide, rfl, rfl, rfl, rfl, by decide, rfl, ?_, rfl, rfl, rfl, by decide, by decide⟩, by decide, by decide,
    by decide⟩
  intro k hk; cases k <;> first | exact absurd rfl hk | decide

/-- A regulator's grant whose selector arrives, the manifold at its target of 200, at 499 and at 500. -/
theorem witness_SupportFillsEnd_arrival :
    ([200, 499, 500].all fun m =>
      let h : Holder := { supportFill 0 with p0 := none }
      let s := (lifting 180 m).modPneu fun p => { p with holder := some h, selector := .moving .left 0 }
      decide (s.awake ∧ s.pneu.holder = some h ∧ h.p0 = none ∧ h.entry.requester = .support .left ∧
        (s.regulator .left).service = .filling .l0 ∧ h.entry.cells ≠ 0 ∧ (s.regulator .left).cuts = Four.all none ∧
        s.pneu.selector = .moving (seatPos .left) 0 ∧ ventedCells s.pneu.vents .left &&& h.entry.cells = 0 ∧
        s.manifoldOf .left = m ∧ h.entry.target = 200)) = true := by decide

/-- A fill of L0 that a SET SUPPORT has ended, its rise window due, the manifold 19 above p0. -/
def cutOff : State := (supported .occupied).modPneu (fun p => { p with manifold := ⟨199, 0⟩ }) |>.modRegulator .left fun g =>
  { g with cuts := (Four.all none).set .l0 (some ⟨200, 180, true⟩) }

/-- Alone, and with a fill of L1 in FILLING that takes the same sample. -/
theorem witness_SupportFillsEnd_cut :
    cutOff.awake ∧ (cutOff.regulator .left).cuts.get .l0 = some ⟨200, 180, true⟩ ∧ cutOff.pneu.holder = none ∧
    cutOff.airQuiet = true ∧ (holdCells.all fun c => cutOff.need .left c != .fill) = true ∧
    ([HoldCell.l1, .s0, .s1].all fun d => (cutOff.regulator .left).cuts.get d == none) = true ∧ 180 + 20 ≤ 200 ∧
    cutOff.manifoldOf .left < 180 + 20 ∧ 500 ≤ min 1000 (500 : Int).toNat ∧
    (let s := cutOff.modPneu fun p => { p with holder := some { supportFill 180 with entry := { leftSupport with cells := 0x2000 } } }
     s.awake ∧ (0x2000 : CellSet) &&& cellBit .l0 = 0) := by decide

theorem venting_runs (o : VentOwner) (s : State) : ∃ v ∈ (venting o s).pneu.vents, v.owner = o ∧ v.left = 0 :=
  ⟨_, List.mem_singleton_self _, rfl, rfl⟩

/-- spec/07 R148: the program timer's end taken first starts the cursor's vent afresh, and the VENT_END that fell together with it does
not end that one. -/
theorem test_program_expiry_before_vent_end :
    let s := (venting (.requester (.massage .left)) (playing .vent fillStep)).modCursor .left fun c => { c with seconds := 0 }
    ((after (.ventEnd (.requester (.massage .left))) s).cursor .left).phase ≠ .vent ∧
    ((after (.ventEnd (.requester (.massage .left))) (after (.programTimerExpiry .left) s)).cursor .left).state = .ending := by
  decide +kernel

theorem witness_VentEndCompletes :
    ready.awake ∧ (∀ v ∈ ready.pneu.vents, v.owner ≠ .reset) ∧
    (let s := venting (.relief .left) ready
     s.awake ∧ (∃ v ∈ s.pneu.vents, v.owner = .relief .left ∧ v.left = 0) ∧ (∀ q, VentOwner.relief .left ≠ .requester q) ∧
       s.pneu.queue = []) :=
  ⟨by decide, by decide, by decide, venting_runs _ _, fun _ => nofun, rfl⟩

/-- The LEFT cursor's vent: IDLE, ENDING alone and with the RIGHT seat's requests about, and in VENT of a step that then dwells and of
one that then fills in a starved part. -/
theorem witness_VentEndCompletes_cursor :
    (let s := venting (.requester (.massage .left)) ready
     s.awake ∧ s.pneu.queue = [] ∧ (s.cursor .left).state ≠ .ending ∧ (s.cursor .left).state ≠ .running) ∧
    (let s := venting (.requester (.massage .left)) (ready.modCursor .left fun c => { c with state := .ending })
     s.awake ∧ s.pneu.queue = [] ∧ (s.cursor .left).state = .ending) ∧
    (let s := venting (.requester (.massage .left)) (rightBusy (ready.modCursor .left fun c => { c with state := .ending }))
     s.awake ∧ (s.cursor .left).state = .ending ∧ s.queueLaws) ∧
    (let s := venting (.requester (.massage .left)) (playing .vent { fillStep with fill := 0 })
     s.awake ∧ (s.cursor .left).state = .running ∧ (s.cursor .left).phase = .vent ∧
       (s.cursor .left).copy = some { fillStep with fill := 0 } ∧ s.pneu.queue = [] ∧ (s.cursor .left).effDwell ≠ 0) ∧
    (let s := (venting (.requester (.massage .left)) (playing .vent fillStep)).modBudget fun b => { b with cEff := 8 }
     s.awake ∧ (s.cursor .left).copy = some fillStep ∧ fillStep.fill ≠ 0 ∧ s.pneu.queue = [] ∧ s.pneu.holder = none ∧
       s.budget.cEff ≤ s.overhead) := by
  refine ⟨by decide, by decide, ⟨by decide, by decide, by decide, by decide, ?_, by decide, by decide⟩, by decide, by decide⟩
  intro h e; cases e; decide

/-- The LEFT regulator's vent of L0 with its need as given, L0's setpoint 200: in an EMPTY seat; in service; with nothing to fill; and
in a starved part that then asks for L0. -/
def ventingL0 (o : Occupancy) (service : Service) (setpoint : Nat) : State :=
  venting (.requester (.support .left))
    (((seated o).setSetpoint .left .l0 ⟨setpoint, .gateway⟩).modRegulator .left fun g =>
      { g with needs := ⟨.vent, .held, .held, .held⟩, service := service })

theorem witness_VentEndCompletes_regulator :
    (let s := ventingL0 .empty .free 200; s.awake ∧ s.pneu.queue = [] ∧ (s.seat .left).occupancy = .empty) ∧
    (let s := ventingL0 .occupied (.waiting .l1) 200; s.awake ∧ (s.regulator .left).service ≠ .free) ∧
    (let s := ventingL0 .occupied .free 0
     s.awake ∧ (s.setpoint .left .l0).value = 0 ∧ s.need .left .l0 = .vent ∧ s.need .left .l1 = .held ∧
       s.need .left .s0 = .held ∧ s.need .left .s1 = .held) ∧
    (let s := (ventingL0 .standby .free 200).modBudget fun b => { b with cEff := 8 }
     s.awake ∧ s.pneu.queue = [] ∧ (s.seat .left).occupancy ≠ .empty ∧ (s.regulator .left).service = .free ∧
       s.need .left .l0 = .vent ∧ (s.setpoint .left .l0).value ≠ 0 ∧ s.faultMark .left .l0 = false ∧
       s.pneu.holder = none ∧ s.budget.cEff ≤ s.overhead) := by decide

/-- Section 5.6's queues behind a RELIEF vent of the LEFT seat, the pump permitted as given. -/
def relieved (permitted : Bool) (s : State) : State :=
  (venting (.relief .left) s).modBudget fun b => { b with result := { b.result with permitted := permitted } }

/-- No permission; a grant held; no candidate; a candidate with the selector elsewhere, on its way, and at rest at its seat; a grant
held in NORMAL as the supply falls to 8.9 V. -/
theorem witness_ArbiterGrantsAndSuspends :
    (∀ x, ∀ q, VentOwner.relief x ≠ .requester q) ∧
    (let s := relieved false (queued [rightSupport] 1 .left .left); s.awake ∧ s.budget.result.permitted = false) ∧
    (let s := relieved true (rightBusy ready); s.awake ∧ s.pneu.holder ≠ none) ∧
    (let s := relieved true ready; s.awake ∧ s.pneu.queue = []) ∧
    ([.atRest .left, .moving .left 3, .moving .right 3, .atRest .right].all fun sel =>
      let s := relieved true ((queued [rightMassage true, rightSupport] 2 .right .left).modPneu fun p => { p with selector := sel })
      decide (s.awake ∧ s.pneu.holder = none ∧ s.budget.result.permitted = true ∧ s.pneu.selector = sel ∧
        choose s = some rightSupport ∧ s.manifoldOf .right < 500 ∧ s.manifoldOf .right < rightSupport.target)) = true ∧
    (let s := rightBusy ready
     s.awake ∧ 60 ≤ 60 ∧ 89 < 90 ∧ s.supply.band ≠ .stop ∧ s.pneu.holder ≠ none) := by
  refine ⟨fun _ _ => nofun, by decide, by decide, by decide, by decide +kernel, by decide⟩

/-- The LEFT cursor's fill at its target with the RIGHT regulator's request behind it, the pump permitted and the selector at rest at
LEFT. -/
def handing : State :=
  ((filling (some 40) 55).modPneu fun p => { p with queue := [rightSupport], selector := .atRest .left }).modBudget
    fun b => { b with result := { b.result with permitted := true } }

theorem witness_ArbiterGrantsAndSuspends_together :
    (handing.awake ∧ 60 ≤ 89 ∧ handing.supply.band ≠ .stop ∧ handing.pneu.holder = some (massageFill (some 40)) ∧
      (massageFill (some 40)).p0 ≠ none ∧ (handing.cursor .left).state = .running ∧ (handing.cursor .left).phase = .filling ∧
      (handing.cursor .left).effDwell ≠ 0 ∧ handing.queueLaws ∧ (∀ y, (handing.regulator y).cuts = Four.all none) ∧
      (massageFill (some 40)).entry.target ≤ min 1000 (240 : Int).toNat ∧ min 1000 (240 : Int).toNat < 500) ∧
    (let s := after (.manifoldSample 240 0) handing
     s.powered = true ∧ ∃ p, p.powered = true ∧ p.budget.result.permitted = true ∧ s.releases = .apart p) := by
  refine ⟨⟨by decide, by decide, by decide, rfl, by decide, by decide, by decide, by decide,
    ⟨by decide, by decide, ?_, by decide, by decide⟩, ?_, by decide, by decide⟩,
    by decide, _, ?_, ?_, rfl⟩
  · intro h e; cases e; decide
  · intro y; cases y <;> rfl
  · decide
  · decide

/-- spec/05 R107: a pass that withdraws the permission finds no grant where the fill ended first, the entry that the release had
granted waiting as before; a millisecond later it suspends that entry's grant. -/
theorem test_release_before_refusing_pass :
    let t := after (.manifoldSample 240 0) handing
    let seen (u : State) := (u.pneu.queue, u.pneu.rotation, u.pneu.lastSeat, u.pneu.selector)
    (t.pneu.holder.map (·.entry)) = some rightSupport ∧ seen t = ([], 1, some .right, .moving .right 250) ∧
    seen (after (.supplySample 89) t) = ([rightSupport], 0, none, .atRest .left) ∧
    seen (after (.supplySample 89) (tick t)) = ([{ rightSupport with resumed := true }], 1, some .right, .moving .right 249) := by
  decide +kernel

/-- spec/05 R102, R107: the same where the start check ends the granted fill at once, the manifold of the release at 300: the entry waits,
neither counted nor done. -/
theorem test_start_check_before_refusing_pass :
    let low := { leftSupport with target := 200 }
    let s := (handing.modPneu fun p => { p with queue := [low] }).modRegulator .left fun g =>
      { g with service := .waiting .l0, needs := ⟨.fill, .held, .held, .held⟩ }
    let t := after (.manifoldSample 300 0) s
    let seen (u : State) := (u.pneu.queue, u.pneu.rotation, u.pneu.lastSeat, u.need .left .l0, (u.cursor .left).phase)
    seen t = ([], 1, some .left, .held, .dwell) ∧
    seen (after (.supplySample 89) t) = ([low], 0, none, .fill, .dwell) := by decide +kernel

/-- A lone entry whose selector rests at its seat, the manifold at its target, at 499 and at 500: the cursor's and the regulator's. -/
theorem witness_ArbiterGrantsAndSuspends_start_checks :
    ([180, 300, 499, 500].all fun m =>
      let lone (e : Entry) : State := relieved true ((queued [e] 1 .right .right).modPneu fun p => { p with manifold := ⟨0, m⟩ })
      let s := (lone (rightMassage false)).modCursor .right fun c => { c with state := .running, phase := .fillWait, effDwell := 10 }
      let u := (lone rightSupport).modRegulator .right fun g => { g with service := .waiting .s1, needs := ⟨.held, .held, .held, .fill⟩ }
      decide (s.awake ∧ s.pneu.holder = none ∧ s.budget.result.permitted = true ∧ choose s = some (rightMassage false) ∧
        s.pneu.selector = .atRest (seatPos .right) ∧ s.manifoldOf .right = m ∧ (s.cursor .right).state = .running ∧
        (s.cursor .right).phase = .fillWait ∧ (s.cursor .right).effDwell ≠ 0 ∧
        u.awake ∧ choose u = some rightSupport ∧ (u.regulator .right).service = .waiting .s1 ∧
        u.need .right .l0 ≠ .fill ∧ u.need .right .l1 ≠ .fill ∧ u.need .right .s0 ≠ .fill)) = true := by decide +kernel

/-- spec/05 R110: with parking NONE written in the middle of a grant the selection before the release still prefers the selector's
seat, and the one after the release does not. -/
theorem test_parking_none_waits_for_release :
    let s := (queued [leftSupport, rightSupport] 1 .right .right).modPneu fun p => { p with parkNone := false }
    let t := after (.writeParameter .gateway 53 1) s
    t.parksNowhere = true ∧ choose t = some rightSupport ∧
    choose (endFill (massageFill none) .withdrawn t) = some leftSupport ∧
    (after (.writeParameter .gateway 53 0) (endFill (massageFill none) .withdrawn t)).pneu.parkNone = false := by
  decide +kernel

/-- spec/05 R94, spec/09 R183: the resumed mark is listed 'set or clear', so set is 0. -/
theorem test_resumed_mark_codes :
    (entryBytes ready.pneu (rightMassage true)).getD 5 9 = 0 ∧ (entryBytes ready.pneu (rightMassage false)).getD 5 9 = 1 := by
  decide

theorem witness_BitErrorAddsWeight :
    (struck 1).awake ∧ (struck 1).stored ∧ (63 : Byte).toNat < 64 ∧ 64 ≤ (64 : Byte).toNat := by decide

/-- The LEFT cursor in DWELL at step 64 with `f`, record 65 a step that only dwells. -/
def dwelling (f : StepFields) : State := (playing .dwell f).putRam 65 ⟨some dwellStep, 0⟩

/-- What the statement's `dwells` and `dwellsOnly` ask, of the LEFT cursor and of record 65. -/
def dwellsTo65 (f : StepFields) : Bool :=
  let s := dwelling f
  decide (s.awake ∧ (s.cursor .left).state = .running ∧ (s.cursor .left).phase = .dwell ∧ (s.cursor .left).step = some 64 ∧
    (s.cursor .left).copy = some f ∧ (s.cursor .left).counter = none ∧ 64 ≤ (65 : Byte).toNat ∧
    s.ramRecord 65 = ⟨some dwellStep, 0⟩ ∧ dwellStep.vent = 0 ∧ dwellStep.fill = 0 ∧ 0 < dwellStep.dwell)

theorem witness_DwellAndProgramTimersAct :
    ready.awake ∧ (ready.cursor .left).state ≠ .running ∧
    (dwellsTo65 dwellStep = true ∧ dwellStep.again = none ∧ dwellStep.next = none) ∧
    dwellsTo65 { dwellStep with next := some 65 } = true ∧
    (dwellsTo65 { dwellStep with again := some ⟨65, 2⟩ } = true ∧ 2 ≤ 2) ∧
    (let s := playing .dwell dwellStep; s.awake ∧ (s.cursor .left).state = .running ∧ (s.cursor .left).seconds ≠ 0) ∧
    (let s := (playing .dwell dwellStep).modCursor .left fun c => { c with seconds := 0 }
     s.awake ∧ (s.cursor .left).state = .running ∧ (s.cursor .left).seconds = 0) := by decide

/-- A step that takes no time and leads to itself. -/
def idleStep : StepFields := { vent := 0, fill := 0, target := 0, dwell := 0, next := some 65, again := none }

/-- The LEFT cursor at a dwell's end, its step leading to 65 under a counter, and record 65 as given. -/
def leading (again : Option Repetition) (counter : Option RepeatCounter) (r : RamRecord) : State :=
  ((playing .dwell { dwellStep with next := some 65, again := again }).putRam 65 r).modCursor .left fun c =>
    { c with counter := counter }

/-- Another's counter; its own, to go on and to go idle; a BLANK record, an uncorrectable one, one that vents, one that fills in a
starved part, and one that leads to itself without time. -/
theorem witness_DwellAndProgramTimersAct_faults :
    (let s := leading (some ⟨65, 2⟩) (some ⟨1, 70⟩) ⟨some dwellStep, 0⟩
     s.awake ∧ (s.cursor .left).state = .running ∧ (s.cursor .left).phase = .dwell ∧ (s.cursor .left).phaseMs = 0 ∧
       (s.cursor .left).step = some 64 ∧ (s.cursor .left).counter = some ⟨1, 70⟩ ∧ (70 : StepIndex) ≠ 64 ∧ s.airQuiet = true) ∧
    ([2, 1].all fun k => decide ((leading (some ⟨65, 3⟩) (some ⟨k, 64⟩) ⟨some dwellStep, 0⟩).awake)) = true ∧
    ((leading none none ⟨none, 0⟩).ramRecord 65 = ⟨none, 0⟩ ∧ 2 ≤ ((leading none none ⟨some dwellStep, 2⟩).ramRecord 65).weight) ∧
    ((leading none none ⟨some dwellStep, 1⟩).ramRecord 65 = ⟨some dwellStep, 1⟩ ∧ (leading none none ⟨none, 0⟩).stored) ∧
    (let s := playing .dwell { dwellStep with next := some 0 }
     s.awake ∧ (s.cursor .left).phaseMs = 0 ∧ (s.cursor .left).counter = none ∧ ¬ 64 ≤ (0 : StepIndex).toNat ∧ s.airQuiet = true) ∧
    ((leading none none ⟨some fillStep, 0⟩).ramRecord 65 = ⟨some fillStep, 0⟩ ∧ fillStep.vent ≠ 0 ∧
      (leading none none ⟨some fillStep, 0⟩).airQuiet = true) ∧
    (let s := (leading none none ⟨some { fillStep with vent := 0 }, 0⟩).modBudget fun b => { b with cEff := 8 }
     s.ramRecord 65 = ⟨some { fillStep with vent := 0 }, 0⟩ ∧ fillStep.fill ≠ 0 ∧ s.airQuiet = true ∧ s.budget.cEff ≤ s.overhead) ∧
    (let s := leading none none ⟨some idleStep, 0⟩
     s.ramRecord 65 = ⟨some idleStep, 0⟩ ∧ (s.cursor .left).hops = 0 ∧ (s.cursor .left).counter = none) := by decide

/-- spec/07 R145, R151: the faults of an advance, and a counter that goes idle at its owner. -/
theorem test_advance_faults :
    let ends (s : State) := let c := (after (.dwellEnd .left) s).cursor .left; (c.state, c.fault, c.counter)
    ends (leading (some ⟨65, 2⟩) (some ⟨1, 70⟩) ⟨some dwellStep, 0⟩) = (.fault, .nest, none) ∧
    ends (leading none none ⟨none, 0⟩) = (.fault, .blank, none) ∧
    ends (leading none none ⟨some dwellStep, 2⟩) = (.fault, .store, none) ∧
    ends (leading none none ⟨some idleStep, 0⟩) = (.fault, .loop, none) ∧
    ends (leading (some ⟨65, 3⟩) (some ⟨2, 64⟩) ⟨some dwellStep, 0⟩) = (.running, .none, some ⟨1, 64⟩) ∧
    ends (leading (some ⟨65, 3⟩) (some ⟨1, 64⟩) ⟨some dwellStep, 0⟩) = (.running, .none, none) := by decide +kernel

/-- The LEFT refresh timer run out. -/
def refreshing (s : State) : State := s.modRegulator .left fun g => { g with refresh := 0 }

/-- Before its end; in an EMPTY seat; in service; with nothing to fill; and in a starved part that then asks for L0. -/
theorem witness_SupportRefreshMarks :
    (ready.awake ∧ (ready.regulator .left).refresh ≠ 0) ∧
    (let s := refreshing ready; s.awake ∧ (s.regulator .left).refresh = 0 ∧ (s.seat .left).occupancy = .empty) ∧
    (let s := refreshing ((supported .occupied).setService .left (.waiting .l1))
     s.awake ∧ (s.regulator .left).refresh = 0 ∧ (s.regulator .left).service ≠ .free) ∧
    (let s := refreshing (seated .occupied)
     s.awake ∧ (s.regulator .left).refresh = 0 ∧ (holdCells.all fun c => (s.setpoint .left c).value == 0 && s.need .left c != .fill) = true) ∧
    (let s := refreshing ((supported .vacating).modBudget fun b => { b with cEff := 8 })
     s.awake ∧ (s.regulator .left).refresh = 0 ∧ (s.seat .left).occupancy ≠ .empty ∧ (s.regulator .left).service = .free ∧
       (s.setpoint .left .l0).value ≠ 0 ∧ s.faultMark .left .l0 = false ∧ s.need .left .l0 = .held ∧
       s.airQuiet = true ∧ s.budget.cEff ≤ s.overhead) := by decide

/-! ### The invariants: a state that has them all but for the cabin it is in, and a step from it -/

/-- A massage fill under way in an OCCUPIED seat, the pump permitted, SET ZONE waiting. -/
def busy : State :=
  let s := filling (some 40) 55
  { s with
    pneu := { s.pneu with compressor := true, selector := .atRest .left }
    budget := { s.budget with result := { s.budget.result with permitted := true, total := 83 } }
    pending := [.setZone .gateway 1 2] }

theorem busy_steps : step busy = .next (after (.setZone .gateway 1 2) { busy with pending := [] }) := rfl

theorem witness_StepKeepsStoreAndAccess : busy.stored ∧ busy.gatewayRules ∧ busy.frameFits := by decide

theorem busy_sound : busy.noticesSound := by
  refine soundBoxes busy.notices.get ?_
  intro m
  cases m
  · exact ⟨by decide, ⟨.retention, none, .nothing⟩, .inl rfl⟩
  · exact ⟨by decide, default, .inr rfl⟩
  · exact ⟨by decide, default, .inr rfl⟩

theorem witness_StepKeepsNotices : busy.noticesSound ∧ busy.noticesPlaced :=
  ⟨busy_sound, fun m => by cases m <;> decide⟩

theorem witness_LinesStayExact : ∀ m, (busy.notices.get m).exact := fun m => (busy_sound m).1

theorem witness_StepKeepsCeilingExact : busy.stored ∧ busy.ceilingExact := by decide

theorem witness_StepKeepsIdleSeatsOff : busy.idleSeatsOff := by
  constructor
  · rintro ⟨x, p⟩; cases x <;> cases p <;> decide
  · rintro ⟨x, p⟩; cases x <;> cases p <;> decide

theorem witness_StepKeepsGrantsWithinDemand : busy.grantsWithinDemand ∧ busy.allocationFits := by
  refine ⟨⟨?_, ?_⟩, by decide⟩
  · rintro ⟨x, p⟩; cases x <;> cases p <;> decide
  · rintro ⟨x, p⟩; cases x <;> cases p <;> decide

/-- The massage fill under way, the RIGHT regulator's request behind it and its vent running. -/
def contended : State := busy.modPneu fun p =>
  { p with queue := [rightSupport], vents := [⟨.requester (.support .right), 0x8000, 0⟩] }

theorem witness_StepKeepsCompressorAndValveLaws :
    (contended.compressorLaw ∧ contended.pneu.compressor = true) ∧ contended.stored ∧ contended.queueLaws ∧
    contended.cellsOwned ∧ contended.valvesApart ∧
    step contended = .next (after (.setZone .gateway 1 2) { contended with pending := [] }) := by
  refine ⟨⟨⟨fun _ => rfl, fun _ => ⟨massageFill (some 40), rfl, rfl, by decide, rfl⟩⟩, rfl⟩, by decide,
    ⟨by decide, by decide, ?_, by decide, by decide⟩, ⟨by decide, ?_, ?_, ?_, ?_⟩, ?_, rfl⟩
  · intro h e; cases e; decide
  · intro h e; cases e; decide
  · intro v hv r e
    have hv : v = ⟨.requester (.support .right), 0x8000, 0⟩ := List.mem_singleton.mp hv
    subst hv; cases e; decide
  · intro i f h; cases h
  · intro x f h; cases x <;> cases h <;> decide
  · intro x; cases x <;> decide

/-- In the witnesses of the invariants no part is kept apart, so that each of their laws is one of either part. -/
theorem witness_inEither (P : State → Prop) :
    (P busy → busy.inEither P) ∧ (P contended → contended.inEither P) ∧ (P (rightBusy ready) → (rightBusy ready).inEither P) ∧
      (P ready → ready.inEither P) :=
  ⟨(inEither_of_select P _ rfl).2, (inEither_of_select P _ rfl).2, (inEither_of_select P _ rfl).2,
    (inEither_of_select P _ rfl).2⟩

/-- A grant held with another seat's request behind it, and RESET SEATS waiting. -/
theorem witness_StepKeepsQueueLaws :
    (rightBusy ready).stored ∧ (rightBusy ready).queueLaws ∧
    step { rightBusy ready with pending := [.resetSeats .gateway] } = .next (after (.resetSeats .gateway) (rightBusy ready)) := by
  refine ⟨by decide, ⟨by decide, by decide, ?_, by decide, by decide⟩, rfl⟩
  intro h e; cases e; decide

/-- A read that corrects a record rewrites its weight and not its content. -/
theorem witness_OnlyWriteStepChangesContent :
    (struck 1).stored ∧ rewritesStore (.readStep .gateway 64) = false ∧ rewritesStore (.supplySample 60) = false ∧
    exec (.readStep .gateway 64) (struck 1) = .next (after (.readStep .gateway 64) (struck 1)) := by
  refine ⟨by decide, rfl, rfl, rfl⟩

end Sys2Proof.Tests
end

section
/-! PROOFS. The reads of the parameters and of the access table (spec/09 R180, R182): a read row whose owner changes nothing is its
response, and what each of the two owners answers. -/
namespace Sys2Proof.Machine

/-! ## A read that changes nothing -/

/-- Before the response the row sets the bus idle, so `hf` speaks of the owner in that state; the response is the row's one effect. -/
theorem taken_readRow_unchanged (m : Master) (f : State → State × List Byte) (a : List Byte) (s : State) (h : s.onBus)
    (hf : f { s with bus := .idle } = ({ s with bus := .idle }, a)) : taken (readRow m f) s = .next (s.responding m a) := by
  have hrow : readRow m f s = s.responding m a := by
    rw [readRow_onBus m f s h, hf]
    exact respond_unchanged m a { s with bus := .idle } 0 rfl
  obtain ⟨hawake, -⟩ := h
  have ⟨_, hreports, hreleases⟩ := hawake
  rw [taken_quiet (readRow m f) s hawake (hrow ▸ hreports) (hrow ▸ hreleases), hrow]

/-! ## READ PARAMETER -/

theorem exec_readParameter (m : Master) (number : Byte) (s : State) :
    exec (.readParameter m number) s = taken (readRow m (answerReadParameter m number)) s := rfl

theorem answerReadParameter_denied (m : Master) (number : Byte) (s : State) (hr : s.mayRead m .config = false) :
    answerReadParameter m number s = (s, [2]) := by
  simp [answerReadParameter, hr, refusal, resultByte]

theorem answerReadParameter_badField (m : Master) (number : Byte) (s : State) (hr : s.mayRead m .config = true)
    (hn : 59 < number.toNat) : answerReadParameter m number s = (s, [6]) := by
  simp [answerReadParameter, hr, hn, refusal, resultByte]

theorem answerReadParameter_ok (m : Master) (number : Byte) (s : State) (hr : s.mayRead m .config = true)
    (hn : number.toNat ≤ 59) :
    answerReadParameter m number s =
      (s, [0] ++ twoBytes (s.param number.toNat) ++ twoBytes (paramDefault number.toNat)) := by
  simp [answerReadParameter, hr, Nat.not_lt.mpr hn, answer, resultByte]

/-- Settles O30: R182's three cases are the owner's three branches, and none of them changes the state. -/
theorem readParameterAnswers : Obligations.ReadParameterAnswers := by
  intro m number s h
  rw [exec_readParameter]
  refine ⟨fun hr => ?denied, fun hr hn => ?badField, fun hr hn => ?ok⟩
  case denied => exact taken_readRow_unchanged m _ _ s h (answerReadParameter_denied m number _ hr)
  case badField => exact taken_readRow_unchanged m _ _ s h (answerReadParameter_badField m number _ hr hn)
  case ok => exact taken_readRow_unchanged m _ _ s h (answerReadParameter_ok m number _ hr hn)

/-! ## READ ACCESS -/

theorem exec_readAccess (m : Master) (s : State) :
    exec (.readAccess m) s = taken (readRow m (answerReadAccess m)) s := rfl

/-- The order of the regions in R178. -/
theorem rightsBytes_eq_map (r : Rights) :
    rightsBytes r =
      [Region.leftSeat, .rightSeat, .store, .budget, .config, .access].map fun region => rightByte (r.get region) := rfl

/-- The order of the masters in R180. -/
theorem accessBytes_eq_flatMap (a : PerMaster Rights) :
    accessBytes a = [Master.gateway, .leftPanel, .rightPanel].flatMap fun k =>
      [Region.leftSeat, .rightSeat, .store, .budget, .config, .access].map fun r => rightByte ((a.get k).get r) := by
  simp only [← rightsBytes_eq_map]
  simp [accessBytes, PerMaster.get]

theorem answerReadAccess_denied (m : Master) (s : State) (hr : s.mayRead m .access = false) :
    answerReadAccess m s = (s, [2]) := by
  simp [answerReadAccess, hr, refusal, resultByte]

theorem answerReadAccess_ok (m : Master) (s : State) (hr : s.mayRead m .access = true) :
    answerReadAccess m s = (s, 0 :: accessBytes s.access) := by
  simp [answerReadAccess, hr, answer, resultByte]

/-- Settles O32: without the right over ACCESS the answer is DENIED, with it the table in the order of `accessBytes_eq_flatMap`. -/
theorem readAccessAnswers : Obligations.ReadAccessAnswers := by
  intro m s h
  rw [exec_readAccess, ← accessBytes_eq_flatMap]
  refine ⟨fun hr => ?denied, fun hr => ?ok⟩
  case denied => exact taken_readRow_unchanged m _ _ s h (answerReadAccess_denied m _ hr)
  case ok => exact taken_readRow_unchanged m _ _ s h (answerReadAccess_ok m _ hr)

end Sys2Proof.Machine
end
section
/-! PROOFS. One principle for every invariant: a law that the shared operations keep is kept by every cursor, regulator, report and
command, and so by every step. -/
namespace Sys2Proof.Machine

/-! ## What an operation may do to a zone and to a fan -/

/-- Zone `z` may take channel `c`: its grant stays within its request, and in an idle seat it stays off. -/
structure ZoneFits (s : State) (z : ZoneId) (c : ZoneChannel) : Prop where
  within : (s.zone z).grant ≤ (s.zone z).request → c.grant ≤ c.request
  off : s.active z.seat = false → (s.zone z).gate = false ∧ (s.zone z).request = 0 ∧ (s.zone z).grant = 0 →
    c.gate = false ∧ c.request = 0 ∧ c.grant = 0

/-- Fan `f` may take channel `c`: its level stays within its demand, and in an idle seat it stays off. -/
structure FanFits (s : State) (f : FanId) (c : FanChannel) : Prop where
  within : (s.fan f).granted ≤ (s.fan f).demand → c.granted ≤ c.demand
  off : s.active f.seat = false → (s.fan f).granted = 0 ∧ (s.fan f).demand = 0 → c.granted = 0 ∧ c.demand = 0

/-! ## What the operations touch -/

theorem deliver_touches (s : State) (n : Notice) (b : Bool) (m : Master) :
    s.deliver n b m = { s with notices := (s.deliver n b m).notices } := by
  unfold State.deliver
  split <;> rfl

theorem raiseDevice_touches (k : NoticeKind) (d : Detail) (s : State) :
    raiseDevice k d s = { s with notices := (raiseDevice k d s).notices } := deliver_touches _ _ _ _

theorem raiseSeat_touches (k : NoticeKind) (x : Seat) (d : Detail) (e : Option Master) (s : State) :
    raiseSeat k x d e s = { s with notices := (raiseSeat k x d e s).notices } := by
  unfold raiseSeat
  dsimp only
  generalize (s.mayRead .gateway x.region && _) = a
  generalize (s.mayRead .leftPanel x.region && _) = b
  generalize (s.mayRead .rightPanel x.region && _) = c
  rw [deliver_touches _ _ c, deliver_touches _ _ b, deliver_touches s _ a]

theorem storeResult_touches (a : Allocation) (s : State) :
    storeResult a s = { s with budget := (storeResult a s).budget, notices := (storeResult a s).notices } := by
  unfold storeResult noteLimited
  split
  · rw [raiseDevice_touches]
    rfl
  · rfl

/-- A pass touches the zones, the fans, the budget and the notices (spec/04 R76 to R78, R80). -/
theorem passCore_touches (s : State) :
    passCore s = { s with
      zones := (passCore s).zones, fans := (passCore s).fans, budget := (passCore s).budget, notices := (passCore s).notices } := by
  unfold passCore handOff
  dsimp only
  rw [storeResult_touches]

/-- A checked read touches the records, the log and the notices (spec/06 R120, R121). -/
theorem readRecord_touches (i : StepIndex) (s : State) :
    readRecord i s = { s with
      ram := (readRecord i s).ram, log := (readRecord i s).log, notices := (readRecord i s).notices } := by
  unfold readRecord
  split
  · unfold correctRecord
    dsimp only
    split
    · rfl
    · rw [raiseDevice_touches]
      rfl
  · unfold failRead
    rw [raiseDevice_touches]
  all_goals rfl

/-- RESET SEATS before its notices and its pass touches the two seats, the pneumatic controller and the pending sets. -/
theorem resetAir_touches (s : State) : ∃ p l, dropSeatNotices (resetPneumatic (clearSeats s)) =
    { dropSeatNotices (clearSeats s) with pneu := p, reports := l } := by
  unfold resetPneumatic orderSelector
  dsimp only
  split <;> split <;> exact ⟨_, _, rfl⟩

/-! ## The fitting channels -/

/-- A channel that is off fits at once. -/
theorem ZoneFits.of_off {s : State} {z : ZoneId} {c : ZoneChannel} (hg : c.gate = false) (hr : c.request = 0) (hd : c.grant = 0) :
    ZoneFits s z c := ⟨fun _ => by omega, fun _ _ => ⟨hg, hr, hd⟩⟩

/-- A channel that keeps request and grant, and puts its gate on only over a grant, fits. -/
theorem ZoneFits.of_same {s : State} {z : ZoneId} {c : ZoneChannel} (hr : c.request = (s.zone z).request)
    (hd : c.grant = (s.zone z).grant) (hg : c.gate = true → (s.zone z).gate = true ∨ 0 < (s.zone z).grant) : ZoneFits s z c := by
  refine ⟨fun h => by omega, fun _ ⟨g, r, d⟩ => ⟨?_, by omega, by omega⟩⟩
  cases e : c.gate with
  | false => rfl
  | true => rcases hg e with k | k
            · rw [g] at k; cases k
            · omega

/-- A channel given a new request fits in an active seat. -/
theorem ZoneFits.of_request {s : State} {z : ZoneId} (r : Nat) (c : ZoneChannel) (ha : s.active z.seat = true) :
    ZoneFits s z (setRequest r c) := by
  obtain ⟨hr, hd⟩ := setRequest_spec r c
  exact ⟨fun _ => by rw [hr, hd]; exact Nat.min_le_right _ _, fun h => absurd h (by simp [ha])⟩

theorem closedLoop_fits {s t : State} {z : ZoneId} (m : Int) (c : ZoneChannel) (ha : s.active z.seat = true) :
    ZoneFits s z (closedLoop t z m c) := .of_request _ _ ha

/-- The evaluation of a zone fits (spec/02 R25, R27). -/
theorem evaluateChannel_fits (s : State) (z : ZoneId) (c : ZoneChannel) : ZoneFits s z (evaluateChannel s z c).1 := by
  unfold evaluateChannel
  cases ha : s.active z.seat with
  | false => exact .of_off rfl rfl rfl
  | true =>
    dsimp only
    simp only [Bool.not_true, Bool.false_eq_true, if_false]
    split
    · exact .of_off rfl rfl rfl
    · split
      · exact .of_off rfl rfl rfl
      · split
        · exact .of_request _ _ ha
        · split
          · exact .of_request _ _ ha
          · exact closedLoop_fits _ _ ha

theorem scanDegraded_fits {s : State} {z : ZoneId} (c : ZoneChannel) (ha : s.active z.seat = true) :
    ZoneFits s z (scanDegraded s z c) := by
  unfold scanDegraded
  split
  · exact .of_request _ _ ha
  · split
    · exact closedLoop_fits _ _ ha
    · exact .of_request _ _ ha

/-- The end of a window puts no gate on. -/
theorem closeWindow_keeps (c : ZoneChannel) :
    (closeWindow c).request = c.request ∧ (closeWindow c).grant = c.grant ∧ ((closeWindow c).gate = true → c.gate = true) := by
  unfold closeWindow
  split
  · exact ⟨rfl, rfl, id⟩
  · exact ⟨rfl, rfl, fun h => by simpa using (Bool.and_eq_true_iff.1 h).1⟩

/-- A demand derived anew fits (spec/03 R47). -/
theorem rederive_fits (s : State) (f : FanId) (l : Nat) (c : FanChannel) : FanFits s f (rederive (s.active f.seat) l c) := by
  obtain ⟨hd, hg⟩ := rederive_spec (s.active f.seat) l c
  refine ⟨fun _ => by rw [hd, hg]; exact Nat.min_le_right _ _, fun ha _ => ?_⟩
  have h0 : fanDemand (s.active f.seat) l c.state = 0 := by simp [fanDemand, ha]
  exact ⟨by rw [hg, h0, Nat.min_zero], by rw [hd, h0]⟩

/-- A channel that keeps level and demand fits. -/
theorem FanFits.of_same {s : State} {f : FanId} {c : FanChannel} (hg : c.granted = (s.fan f).granted)
    (hd : c.demand = (s.fan f).demand) : FanFits s f c := ⟨fun h => by omega, fun _ ⟨g, d⟩ => ⟨by omega, by omega⟩⟩

theorem FanFits.of_off {s : State} {f : FanId} {c : FanChannel} (hg : c.granted = 0) (hd : c.demand = 0) : FanFits s f c :=
  ⟨fun _ => by omega, fun _ _ => ⟨hg, hd⟩⟩

theorem stallChannel_off (c : FanChannel) : (stallChannel c).granted = 0 ∧ (stallChannel c).demand = 0 := by
  unfold stallChannel
  dsimp only
  split <;> exact ⟨rfl, rfl⟩

/-! ## The loads of a seat -/

/-- A law that a zone, a fan or a raise of a seat kind keeps. In this structure and the two below a clause left out is one for a
law that does not look at what the clause is about. -/
structure LoadsKeep (P : State → Prop) : Prop where
  setZone : ∀ z c s, ZoneFits s z c → P s → P (s.setZone z c) := by intro z c s _ h; exact h
  setFan : ∀ f c s, FanFits s f c → P s → P (s.setFan f c) := by intro f c s _ h; exact h
  raiseSeat : ∀ k x d e s, k.isSeatKind = true → P s → P (raiseSeat k x d e s) := by
    intro k x d e s _ h; rw [raiseSeat_touches]; exact h

namespace LoadsKeep

variable {P : State → Prop} (K : LoadsKeep P) {s : State}
include K

theorem putEvaluated (z : ZoneId) (r : ZoneChannel × Bool) (hz : ZoneFits s z r.1) (h : P s) : P (putEvaluated z r s) := by
  unfold Machine.putEvaluated
  split
  · exact K.raiseSeat _ _ _ _ _ rfl (K.setZone z _ s hz h)
  · exact K.setZone z _ s hz h

theorem evaluateZone (z : ZoneId) (h : P s) : P (evaluateZone z s) :=
  K.putEvaluated z _ (evaluateChannel_fits s z _) h

omit K in
theorem foldl {α : Type} (f : State → α → State) (hf : ∀ u a, P u → P (f u a)) (l : List α) (h : P s) : P (l.foldl f s) := by
  induction l generalizing s with
  | nil => exact h
  | cons a l ih => exact ih (hf _ _ h)

theorem evaluateSeatZones (x : Seat) (h : P s) : P (evaluateSeatZones x s) :=
  foldl _ (fun _ z hu => K.evaluateZone z hu) _ h

theorem rederiveFan (f : FanId) (h : P s) : P (rederiveFan f s) := K.setFan f _ s (rederive_fits s f _ _) h

theorem handFan (b : Bool) (f : FanId) (h : P s) : P (handFan b f s) := K.setFan f _ s (rederive_fits s f _ _) h

theorem rederiveSeatFans (x : Seat) (h : P s) : P (rederiveSeatFans x s) :=
  foldl _ (fun _ f hu => K.rederiveFan f hu) _ h

theorem emptySeatFans (x : Seat) (h : P s) : P (emptySeatFans x s) := foldl _ (fun _ f hu => K.handFan false f hu) _ h

theorem occupyLoads (x : Seat) (h : P s) : P (occupyLoads x s) := K.rederiveSeatFans x (K.evaluateSeatZones x h)

theorem scanZone (z : ZoneId) (h : P s) : P (scanZone z s) := by
  unfold Machine.scanZone
  dsimp only
  split
  · rename_i hc
    simp only [Bool.and_eq_true] at hc
    exact K.setZone z _ s (scanDegraded_fits _ hc.1.1.1) h
  · exact K.evaluateZone z h

theorem scanZones (h : P s) : P (scanZones s) := foldl _ (fun _ z hu => K.scanZone z hu) _ h

theorem latchZone (z : ZoneId) (c : HeatCause) (h : P s) : P (latchZone z c s) :=
  K.raiseSeat _ _ _ _ _ rfl (K.setZone z _ s (.of_off rfl rfl rfl) h)

end LoadsKeep

/-! ## The shared operations -/

/-- Cells that a request of `r` may name; asked for only where the law `owned` is about cells. -/
def named (owned : Prop) (r : Requester) (c : CellSet) : Prop := owned → c &&& ~~~ownCells r = 0

/-- A law that the pneumatic controller and its passes keep. `R` is what stands of it before a pass. -/
structure AirKeep (owned : Prop) (P R : State → Prop) : Prop where
  part : ∀ s t : State, s.toPart = t.toPart → P s → P t
  runPass : ∀ s, R s → P (runPass s)
  scanPass : ∀ s, R s → P (scanPass s)
  requestFill : ∀ r c g s, named owned r c → P s → P (requestFill r c g s)
  withdraw : ∀ r s, P s → P (withdraw r s)
  requestVent : ∀ r c s, named owned r c → P s → P (requestVent r c s)
  cancelVent : ∀ r s, P s → P (cancelVent r s)
  finishFill : ∀ h how s, s.pneu.holder = some h → P s → P (finishFill h how s)
  sample : ∀ l r s, P s → P (judgeFill (storeSamples l r s))
  arrive : ∀ s, P s → P (arriveSelector s)
  endVent : ∀ o s, P s → P (endVent o s)

/-- A law that the pneumatic controller, the loads and every other shared operation keep. -/
structure OpsKeep (owned : Prop) (P R : State → Prop) : Prop extends LoadsKeep P, AirKeep owned P R where
  beforePass : ∀ s, P s → R s := by intro s h; exact h
  raiseDevice : ∀ k d s, k.isSeatKind = false → R s → R (raiseDevice k d s) := by
    intro k d s _ h; rw [raiseDevice_touches]; exact h
  recompute : ∀ s b sp n, b.result = s.budget.result → P s →
    R (recomputeCeiling { s with budget := b, supply := sp, supplyTimer := n }) := by intro s b sp n _ h; exact h
  riseOver : ∀ h s, s.pneu.holder = some h → P s →
    P (s.modPneu fun p => { p with holder := some { h with riseTimer := none } }) := by intro h s _ k; exact k
  resetAir : ∀ s, P s → P (dropSeatNotices (resetPneumatic (clearSeats s))) := by
    intro s h; obtain ⟨p, l, e⟩ := resetAir_touches s; rw [e]; exact h
  parkLast : ∀ s, P s → P (s.modPneu fun p => { p with parkNone := false }) := by intro s h; exact h
  copyOwned : owned → ∀ s x f, P s → (s.cursor x).copy = some f → massageOnly f := by intro h; exact h.elim
  fetchOwned : owned → ∀ s i f, P s → s.fetch i = .inl f → massageOnly f := by intro h; exact h.elim
  modCursor : ∀ x g s, (owned → ∀ f, (g (s.cursor x)).copy = some f → (s.cursor x).copy = some f ∨ massageOnly f) → P s →
    P (s.modCursor x g) := by intro x g s _ h; exact h
  modRegulator : ∀ x g s, P s → P (s.modRegulator x g) := by intro x g s h; exact h
  modSeat : ∀ x g s, (s.active x = false ∨ (g (s.seat x)).occupancy.active = true ∨
    (g (s.seat x)).occupancy = (s.seat x).occupancy) → P s → P (s.modSeat x g) := by intro x g s _ h; exact h
  idleLoads : ∀ x g s, (g (s.seat x)).occupancy.active = false → P s → P (occupyLoads x (s.modSeat x g))
  emptySeat : ∀ x g k s, (g (s.seat x)).occupancy.active = false → (∀ c, (k c).copy = c.copy) → P s →
    P (emptySeatFans x (evaluateSeatZones x (restartSeatStepDown x ((s.modSeat x g).modCursor x k))))
  storeScan : ∀ v s, P s → P (storeScan v s) := by intro v s h; exact h
  modBudget : ∀ g s, (g s.budget).result = s.budget.result ∧ (g s.budget).ceiling = s.budget.ceiling ∧
    (g s.budget).derate = s.budget.derate ∧ (g s.budget).cEff = s.budget.cEff → P s → P (s.modBudget g) := by
    intro g s _ h; exact h
  supply : ∀ sp n s, sp.band = s.supply.band → P s → P { s with supply := sp, supplyTimer := n } := by
    intro sp n s _ h; exact h
  scanned : ∀ b n s, P s → P { s with scanned := b, scanTimer := n } := by intro b n s h; exact h
  frame : ∀ n m s, P s → P { s with frameSlot := n, frameMs := m } := by intro n m s h; exact h
  readRecord : ∀ i s, P s → P (readRecord i s) := by intro i s h; rw [readRecord_touches]; exact h
  disturb : ∀ i s, P s → P (disturb i s) := by intro i s h; unfold disturb; split <;> exact h
  clearLog : ∀ s, P s → P { s with log := .clear } := by intro s h; exact h
  putEntry : ∀ n e s, 4 ≤ n → n ≤ 15 → P s → P (s.putEntry n e) := by intro n e s _ _ h; exact h
  putParam : ∀ n v s, n ≤ 59 → n ≠ 44 → n ≠ 52 → P s → P (s.putParam n (nearestAllowed (paramRange n) v)) := by
    intro n v s _ _ _ h; exact h
  putShed : ∀ v s, P s → R (recomputeCeiling (s.putParam 44 (nearestAllowed (paramRange 44) v))) := by intro v s h; exact h
  putRotation : ∀ v s, P s → P (rotationLimitWritten (s.putParam 52 (nearestAllowed (paramRange 52) v))) := by
    intro v s h; exact h
  bus : ∀ b s, b.received.length ≤ max 35 s.bus.received.length → P s → P { s with bus := b } := by intro b s _ h; exact h
  results : ∀ r s, P s → P { s with results := r } := by intro r s h; exact h
  storeRight : ∀ who r v s, ¬ (who = .gateway ∧ r = .access) → P s → P (storeRight who r v s) := by
    intro who r v s _ h; exact h
  storeMask : ∀ m k s, P s → P (storeMask m k s) := by intro m k s h; exact h
  removeNotice : ∀ m n s, P s → P (removeNotice m n s) := by intro m n s h; exact h

/-- An occupancy change at a seat's loads, for a law that the record of the seat does not reach. -/
theorem LoadsKeep.idleLoads {P : State → Prop} (K : LoadsKeep P) (hp : ∀ x g s, P s → P (s.modSeat x g)) (x : Seat)
    (g : SeatRecord → SeatRecord) (s : State) (_ : (g (s.seat x)).occupancy.active = false) (h : P s) :
    P (Machine.occupyLoads x (s.modSeat x g)) :=
  K.occupyLoads x (hp x g s h)

/-- The zones of a seat with their step-down counts at 0: five zones that fit. -/
theorem restartSeatStepDown_eq (x : Seat) (s : State) :
    restartSeatStepDown x s =
      { s with zones := s.zones.set x ((s.zones.get x).map restartStepDown) } := rfl

/-- The entry of a seat to EMPTY at its loads, for a law that the record of the seat and the step-down counts do not reach. -/
theorem LoadsKeep.emptySeat {P : State → Prop} (K : LoadsKeep P) (hs : ∀ x g s, P s → P (s.modSeat x g))
    (hc : ∀ x k s, (∀ c, (k c).copy = c.copy) → P s → P (s.modCursor x k)) (hz : ∀ x s, P s → P (restartSeatStepDown x s))
    (x : Seat) (g : SeatRecord → SeatRecord) (k : Cursor → Cursor) (s : State)
    (_ : (g (s.seat x)).occupancy.active = false) (hk : ∀ c, (k c).copy = c.copy) (h : P s) :
    P (Machine.emptySeatFans x (Machine.evaluateSeatZones x (restartSeatStepDown x ((s.modSeat x g).modCursor x k)))) :=
  K.emptySeatFans x (K.evaluateSeatZones x (hz x _ (hc x k _ hk (hs x g s h))))

/-- A law that all that a pass and the reports can do keeps, the pneumatic controller keeps. -/
theorem AirKeep.of_stirs {owned : Prop} {P : State → Prop} (part : ∀ s t : State, s.toPart = t.toPart → P s → P t)
    (stirs : ∀ s t, Stirs (fun _ => True) s t → P s → P t) (samples : ∀ l r s, P s → P (storeSamples l r s))
    (peak : ∀ n s, P s → P (s.modBudget fun b => { b with peak := n })) : AirKeep owned P P where
  part := part
  runPass s := stirs s _ (stirs_runPass (.same s))
  scanPass s h := stirs _ _ (stirs_takePermission (.same _)) (peak (passCore s).budget.result.total _
    (stirs s _ (.pass (.same s)) h))
  requestFill r c g s _ := stirs s _ (stirs_requestFill (.same s) r c g)
  withdraw r s := stirs s _ (stirs_withdraw (.same s) r)
  requestVent r c s _ := stirs s _ (stirs_requestVent (.same s) r c)
  cancelVent r s := stirs s _ (stirs_cancelVent (.same s) r)
  finishFill h how s _ := stirs s _ (stirs_finishFill (.same s) h how)
  sample l r s h := by
    refine stirs _ _ ?_ (samples l r s h)
    unfold judgeFill
    repeat' split
    · exact stirs_finishFill (.same _) _ _
    all_goals exact .same _
  arrive s := by
    refine stirs s _ ?_
    unfold arriveSelector
    dsimp only
    repeat' split
    · exact .same s
    · exact .same s
    · exact stirs_beginFilling (.air (.same s) _ rfl) _
    · exact .air (.same s) _ rfl
    · exact .air (.same s) _ rfl
  endVent o s := by
    refine stirs s _ ?_
    have k : Stirs (fun _ => True) s (select (s.modPneu fun p => { p with vents := dropVent o p.vents })) :=
      stirs_select (.air (.same s) _ rfl)
    unfold Machine.endVent
    dsimp only
    repeat' split
    · exact stirs_report k _
    · exact k
    · exact k
    · exact .same s

end Sys2Proof.Machine
end
section
/-! PROOFS. What the shared operations keep, the cursors, the regulators and the reports keep. -/
namespace Sys2Proof.Machine

/-! ## Cells -/

theorem not_ownCells_massage (x : Seat) : ~~~ownCells (.massage x) = 0xF000 := by
  show ~~~(0x0FFF : CellSet) = 0xF000
  decide

theorem not_ownCells_support (x : Seat) : ~~~ownCells (.support x) = 0x0FFF := by
  show ~~~(0xF000 : CellSet) = 0x0FFF
  decide

theorem named_massage {owned : Prop} (x : Seat) (c : CellSet) (h : owned → c &&& 0xF000 = 0) : named owned (.massage x) c :=
  fun o => by rw [not_ownCells_massage]; exact h o

theorem named_support {owned : Prop} (x : Seat) (c : CellSet) (h : c &&& 0x0FFF = 0) : named owned (.support x) c :=
  fun _ => by rw [not_ownCells_support]; exact h

theorem cellBit_holding (c : HoldCell) : cellBit c &&& 0x0FFF = 0 := by cases c <;> decide

theorem named_cellBit {owned : Prop} (x : Seat) (c : HoldCell) : named owned (.support x) (cellBit c) :=
  named_support x _ (cellBit_holding c)

/-- The venting set names holding cells alone (spec/08 R159). -/
theorem ventingSet_holding (r : Regulator) : r.ventingSet &&& 0x0FFF = 0 := by
  have step (acc : CellSet) (c : HoldCell) (h : acc &&& 0x0FFF = 0) :
      (if r.needs.get c = .vent then acc ||| cellBit c else acc) &&& 0x0FFF = 0 := by
    split
    · rw [BitVec.and_comm, BitVec.and_or_distrib_left, BitVec.and_comm _ acc, BitVec.and_comm _ (cellBit c), h, cellBit_holding]
      rfl
    · exact h
  exact step _ _ (step _ _ (step _ _ (step _ _ (by decide))))

/-- A fetch returns a copy of what is stored, which a correction leaves. -/
theorem Cursor.hopAtEntry_copy (f : StepFields) (c : Cursor) : (c.hopAtEntry f).copy = c.copy := by
  unfold Cursor.hopAtEntry
  repeat' split
  all_goals rfl

namespace OpsKeep

variable {owned : Prop} {P R : State → Prop} (K : OpsKeep owned P R) {s : State}
include K

theorem reports (l : List Report) (h : P s) : P { s with reports := l } := K.part s _ rfl h

theorem report (r : Report) (h : P s) : P (s.report r) := K.reports _ h

theorem pass (h : P s) : P (Machine.runPass s) := K.runPass s (K.beforePass s h)

/-- An update of a cursor that leaves its copy. -/
theorem cursor (x : Seat) (g : Cursor → Cursor) (hg : (g (s.cursor x)).copy = (s.cursor x).copy) (h : P s) : P (s.modCursor x g) :=
  K.modCursor x g s (fun _ _ e => .inl (hg ▸ e)) h

theorem idleCursor (x : Seat) (g : Cursor → Cursor) (hg : (g (s.cursor x)).copy = none) (h : P s) : P (s.modCursor x g) :=
  K.modCursor x g s (fun _ _ e => by rw [hg] at e; cases e) h

theorem ventMassage (x : Seat) (h : P s) : P (Machine.requestVent (.massage x) massageCells s) :=
  K.requestVent _ _ s (named_massage x _ fun _ => by decide) h

/-! ## The cursors -/

theorem withdrawCursor (x : Seat) (h : P s) : P (withdrawCursor x s) := by
  unfold Machine.withdrawCursor
  split
  · exact K.withdraw _ s h
  · exact h

theorem enterEnding (x : Seat) (c : EndCause) (h : P s) : P (enterEnding x c s) := by
  unfold Machine.enterEnding
  exact K.ventMassage x (K.cursor x _ (by rfl) (K.withdrawCursor x h))

theorem enterFault (x : Seat) (c : FaultCode) (h : P s) : P (enterFault x c s) := by
  unfold Machine.enterFault
  exact K.raiseSeat _ _ _ _ _ rfl (K.ventMassage x (K.cursor x _ (by rfl) (K.withdrawCursor x h)))

theorem beginVent (x : Seat) (c : CellSet) (hc : owned → c &&& 0xF000 = 0) (h : P s) : P (beginVent x c s) :=
  K.requestVent _ _ _ (named_massage x c hc) (K.cursor x _ (by rfl) h)

theorem beginFillWait (x : Seat) (c : CellSet) (hc : owned → c &&& 0xF000 = 0) (h : P s) : P (beginFillWait x c s) :=
  K.requestFill _ _ _ _ (named_massage x c hc) (K.cursor x _ (by rfl) h)

theorem beginDwell (x : Seat) (h : P s) : P (beginDwell x s) := K.cursor x _ (by rfl) h

theorem takeStep (x : Seat) (i : StepIndex) (f : StepFields) (hf : owned → massageOnly f) (h : P s) : P (takeStep x i f s) := by
  refine K.modCursor x _ _ (fun o g e => .inr ?_) (K.readRecord i s h)
  rw [Cursor.hopAtEntry_copy] at e
  cases e
  exact hf o

theorem enterStep (n : Nat) (x : Seat) (i : StepIndex) (h : P s) : P (enterStep n x i s) := by
  induction n generalizing s i with
  | zero => exact h
  | succ n ih =>
    simp only [Machine.enterStep]
    split
    · exact K.enterFault x _ (K.cursor x _ (by rfl) (K.readRecord i s h))
    · rename_i f hf
      have own : owned → massageOnly f := fun o => K.fetchOwned o s i f h hf
      have k := K.takeStep x i f own h
      split
      · exact K.beginVent x _ (fun o => (own o).1) k
      · split
        · exact K.beginFillWait x _ (fun o => (own o).2) k
        · split
          · exact K.beginDwell x k
          · split
            · exact K.enterFault x _ k
            · have u : P ((Machine.takeStep x i f s).modCursor x fun c => { c with counter := c.advance.2 }) :=
                K.cursor x _ (by rfl) k
              split
              · exact ih _ u
              · exact K.enterEnding x _ u
              · exact K.enterFault x _ u

theorem advanceCursor (x : Seat) (h : P s) : P (advanceCursor x s) := by
  have u : P (s.modCursor x fun c => { c with counter := c.advance.2, phaseMs := 0 }) := K.cursor x _ (by rfl) h
  simp only [Machine.advanceCursor]
  split
  · exact K.enterStep _ x _ u
  · exact K.enterEnding x _ u
  · exact K.enterFault x _ u

theorem dwellOrAdvance (x : Seat) (h : P s) : P (dwellOrAdvance x s) := by
  unfold Machine.dwellOrAdvance
  split
  · exact K.beginDwell x h
  · exact K.advanceCursor x h

theorem ventPhaseDone (x : Seat) (h : P s) : P (ventPhaseDone x s) := by
  unfold Machine.ventPhaseDone
  split
  · rename_i f hf
    split
    · exact K.beginFillWait x _ (fun o => (K.copyOwned o s x f h hf).2) h
    · exact K.dwellOrAdvance x h
  · exact K.dwellOrAdvance x h

theorem cursorVentComplete (x : Seat) (h : P s) : P (cursorVentComplete x s) := by
  unfold Machine.cursorVentComplete
  split
  · split
    · exact K.ventPhaseDone x h
    · exact h
  · exact K.raiseSeat _ _ _ _ _ rfl (K.idleCursor x _ (by rfl) h)
  all_goals exact h

theorem cursorGranted (x : Seat) (h : P s) : P (cursorGranted x s) := by
  unfold Machine.cursorGranted
  split
  · exact K.cursor x _ (by rfl) h
  · exact h

theorem cursorFilled (x : Seat) (b : Bool) (h : P s) : P (cursorFilled x b s) := by
  simp only [Machine.cursorFilled]
  split
  · split
    · have k : P (s.modCursor x fun c => { c with hops := c.hops + 1 }) := K.cursor x _ (by rfl) h
      split
      · exact K.enterFault x _ k
      · exact K.advanceCursor x k
    · exact K.dwellOrAdvance x h
  · exact K.dwellOrAdvance x (K.cursor x _ (by rfl) h)

theorem countUnderfill (x : Seat) (h : P s) : P (countUnderfill x s) := K.modSeat x _ s (.inr (.inr rfl)) h

theorem cursorOutcome (x : Seat) (how : FillEnd) (h : P s) : P (cursorOutcome x how s) := by
  unfold Machine.cursorOutcome
  split
  · cases how with
    | done b _ => exact K.cursorFilled x b h
    | underfill _ => exact K.cursorFilled x false (K.countUnderfill x h)
    | leak _ => exact K.enterFault x _ h
    | overpressure _ => exact K.enterFault x _ h
    | suspend => exact K.cursor x _ (by rfl) h
    | withdrawn => exact h
  · exact h

/-! ## The regulators -/

theorem setService (x : Seat) (v : Service) (h : P s) : P (s.setService x v) := K.modRegulator x _ s h

theorem setNeed (x : Seat) (c : HoldCell) (n : Need) (h : P s) : P (s.setNeed x c n) := K.modRegulator x _ s h

theorem setSetpoint (x : Seat) (c : HoldCell) (v : Setting) (h : P s) : P (s.setSetpoint x c v) :=
  K.modSeat x _ s (.inr (.inr rfl)) h

theorem selectCell (x : Seat) (h : P s) : P (selectCell x s) := by
  unfold Machine.selectCell
  split
  · split
    · exact K.requestFill _ _ _ _ (named_cellBit x _) (K.setService x _ h)
    · exact h
  · exact h

theorem joinVent (x : Seat) (c : HoldCell) (h : P s) : P (joinVent x c s) :=
  K.requestVent _ _ _ (named_support x _ (ventingSet_holding _)) (K.setNeed x c _ h)

theorem cutShort (x : Seat) (c : HoldCell) (h : P s) : P (cutShort x c s) := by
  rcases cutShort_cases x c s with e | ⟨_, _, _, _, _, e⟩
  · rw [e]; exact h
  · rw [e]; exact K.modRegulator x _ s h

theorem raiseCell (x : Seat) (c : HoldCell) (h : P s) : P (raiseCell x c s) := by
  unfold Machine.raiseCell
  split
  · exact K.selectCell x (K.setNeed x c _ h)
  · split
    · exact K.requestFill _ _ _ _ (named_cellBit x c) (K.setService x _ (K.cutShort x c h))
    · exact h
  · exact h

theorem withdrawSupport (x : Seat) (h : P s) : P ((Machine.withdraw (.support x) s).setService x .free) :=
  K.setService x _ (K.withdraw _ s h)

theorem lowerCell (x : Seat) (c : HoldCell) (h : P s) : P (lowerCell x c s) := by
  unfold Machine.lowerCell
  split
  · exact h
  all_goals
    split
    · exact K.selectCell x (K.joinVent x c (K.withdrawSupport x (K.cutShort x c h)))
    · exact K.joinVent x c h

theorem handSetpoint (x : Seat) (c : HoldCell) (old new : Nat) (h : P s) : P (handSetpoint x c old new s) := by
  unfold Machine.handSetpoint handEmpty
  split
  · split
    · exact h
    · exact K.setNeed x c _ h
  · split
    · exact K.raiseCell x c h
    · split
      · exact K.lowerCell x c h
      · exact h

theorem faultCell (x : Seat) (c : HoldCell) (o : CellOutcome) (h : P s) : P (faultCell x c o s) :=
  K.raiseSeat _ _ _ _ _ rfl (K.joinVent x c (K.modRegulator x _ _ (K.setSetpoint x c _ h)))

theorem faultCut (x : Seat) (c : HoldCell) (o : CellOutcome) (h : P s) : P (faultCut x c o s) := by
  have k : P (s.modRegulator x fun r => { r with cuts := r.cuts.set c none }) := K.modRegulator x _ s h
  unfold Machine.faultCut
  split
  · exact K.selectCell x (K.faultCell x c o (K.withdrawSupport x k))
  · exact K.selectCell x (K.faultCell x c o k)

theorem leakCut (x : Seat) (h : P s) : P (leakCut x s) := by
  refine LoadsKeep.foldl _ (fun u c hu => ?_) _ h
  unfold leakCell
  split
  · split
    · exact K.faultCut x _ _ hu
    · exact hu
  · exact hu

theorem burstCut (x : Seat) (judged : CellSet) (h : P s) : P (burstCut x judged s) := by
  refine LoadsKeep.foldl _ (fun u c hu => ?_) _ h
  unfold burstCell
  split
  · split
    · exact K.faultCut x _ _ hu
    · exact hu
  · exact hu

theorem supportGranted (x : Seat) (h : P s) : P (supportGranted x s) := by
  unfold Machine.supportGranted
  split
  · exact K.setService x _ h
  all_goals exact h

theorem supportSuspended (x : Seat) (h : P s) : P (supportSuspended x s) := by
  unfold Machine.supportSuspended
  split
  · exact K.setService x _ h
  all_goals exact h

theorem supportOutcome (x : Seat) (how : FillEnd) (h : P s) : P (supportOutcome x how s) := by
  unfold Machine.supportOutcome
  split
  · exact h
  · cases how with
    | done _ _ => exact K.selectCell x (K.setService x _ (K.setNeed x _ _ h))
    | underfill _ => exact K.selectCell x (K.setService x _ (K.setNeed x _ _ h))
    | leak _ => exact K.selectCell x (K.faultCell x _ _ (K.setService x _ h))
    | overpressure _ => exact K.selectCell x (K.faultCell x _ _ (K.setService x _ h))
    | suspend => exact K.supportSuspended x h
    | withdrawn => exact h

theorem supportVentComplete (x : Seat) (h : P s) : P (supportVentComplete x s) := by
  unfold Machine.supportVentComplete
  split
  · exact h
  · exact K.selectCell x (K.modRegulator x _ s h)

theorem emptyRegulator (x : Seat) (h : P s) : P (emptyRegulator x s) := by
  unfold Machine.emptyRegulator
  refine K.requestVent _ _ _ (named_support x _ (by decide)) (K.modRegulator x _ _ ?_)
  split
  · exact h
  · exact K.withdrawSupport x h

theorem refreshRegulator (x : Seat) (h : P s) : P (refreshRegulator x s) := K.selectCell x (K.modRegulator x _ s h)

/-! ## Reports -/

theorem takeReport (r : Report) (h : P s) : P (takeReport r s) := by
  cases r with
  | granted who => cases who with
    | massage x => exact K.cursorGranted x h
    | support x => exact K.supportGranted x h
  | ended who how => cases who with
    | massage x => exact K.cursorOutcome x how h
    | support x => exact K.supportOutcome x how h
  | ventComplete who => cases who with
    | massage x => exact K.cursorVentComplete x h
    | support x => exact K.supportVentComplete x h

theorem settle (n : Nat) (h : P s) : P (settle n s) := by
  induction n generalizing s with
  | zero => exact h
  | succ n ih =>
    unfold Machine.settle
    split
    · exact h
    · exact ih (K.takeReport _ (K.reports _ h))

end OpsKeep

end Sys2Proof.Machine
end
section
/-! PROOFS. What the shared operations keep, every command keeps, and so every step. -/
namespace Sys2Proof.Machine

/-! ## The effect of a command -/

/-- What a command does to a part with supply; the loss and the return of the supply are not taken by a part. -/
def effectOf : Instr → State → State
  | .powerOn _ _ _ _ => id
  | .transactionStart a => startTransaction a
  | .frameByte b => receiveByte b
  | .busStop => stopTransaction
  | .repeatedStart a => repeatStart a
  | .responseByte b => clockByte b
  | .transactionTimeout => expireTransaction
  | .busLowTimeout => expireBusLow
  | .setZone m z l => writeRow (takeSetZone m z l)
  | .setFan m f l => writeRow (takeSetFan m f l)
  | .setSupport m x c v => writeRow (takeSetSupport m x c v)
  | .startProgram m x p d => writeRow (takeStartProgram m x p d)
  | .adjustProgram m x i v => writeRow (takeAdjustProgram m x i v)
  | .pause m x => writeRow (takePause m x)
  | .resume m x => writeRow (takeResume m x)
  | .stopProgram m x => writeRow (takeStopProgram m x)
  | .resetSeats m => writeRow (takeResetSeats m)
  | .readSeat m x p => readRow m (answerReadSeat m x p)
  | .setCeiling m c => writeRow (takeSetCeiling m c)
  | .readBudget m p => readRow m (answerReadBudget m p)
  | .writeStep m d => writeRow (takeWriteStep m d)
  | .readStep m i => readRow m (answerReadStep m i)
  | .writeProgramEntry m p v f d => writeRow (takeWriteEntry m p v f d)
  | .readProgramEntry m p => readRow m (answerReadEntry m p)
  | .writeParameter m n v => writeRow (takeWriteParameter m n v)
  | .readParameter m n => readRow m (answerReadParameter m n)
  | .readDiagnostics m p => readRow m (answerReadDiagnostics m p)
  | .clearDiagnostics m => writeRow (takeClearDiagnostics m)
  | .writeAccess m k r v => writeRow (takeWriteAccess m k r v)
  | .readAccess m => readRow m (answerReadAccess m)
  | .setNoticeMask m k => writeRow (takeSetMask m k)
  | .takeNotice m => readRow m (answerTakeNotice m)
  | .readNotices m => readRow m (answerReadNotices m)
  | .readResult m => readRow m (answerReadResult m)
  | .occupancyInputChange x b => changeInput x b
  | .debounceExpiry x => expireDebounce x
  | .vacancyDelayExpiry x => expireVacancy x
  | .clearTimeExpiry x => expireClear x
  | .scanCompletion v sum count => completeScan v sum count
  | .zoneFrameStart z => startZoneFrame z
  | .onWindowEnd z c => judgeWindow z c
  | .overcurrent z c => compareCurrent z c
  | .stepDown z => reachStepDown z
  | .tachPulse f => pulseFan f
  | .fanStall f => stallFan f
  | .retryTimerExpiry f => expireRetry f
  | .cleanRunComplete f => completeCleanRun f
  | .ceilingRefreshExpiry => expireRefresh
  | .supplySample v => sampleSupply v
  | .manifoldSample l r => sampleManifolds l r
  | .selectorArrival => arriveSelector
  | .riseWindowExpiry => expireRise
  | .maximumFillExpiry => expireFill
  | .ventEnd o => endVent o
  | .cellBitError i => disturb i
  | .dwellEnd x => endDwell x
  | .programTimerExpiry x => expireProgram x
  | .supportRefreshExpiry x => expireSupport x
  | .lossOfSupply => id

/-- Every command but the loss and the return of the supply is taken by the part. -/
theorem exec_eq_taken (c : Instr) (s : State) (hp : ∀ ads l r v, c ≠ .powerOn ads l r v) (hl : c ≠ .lossOfSupply) :
    exec c s = taken (effectOf c) s := by
  cases c
  case powerOn ads l r v => exact absurd rfl (hp ads l r v)
  case lossOfSupply => exact absurd rfl hl
  all_goals rfl

/-! ## The reads that change nothing -/

theorem answerReadSeat_state (m : Master) (x p : Byte) (s : State) : (answerReadSeat m x p s).1 = s := by
  unfold answerReadSeat
  repeat' split
  all_goals rfl

theorem answerReadBudget_state (m : Master) (p : Byte) (s : State) : (answerReadBudget m p s).1 = s := by
  unfold answerReadBudget
  repeat' split
  all_goals rfl

theorem answerReadEntry_state (m : Master) (p : Byte) (s : State) : (answerReadEntry m p s).1 = s := by
  unfold answerReadEntry
  repeat' split
  all_goals rfl

theorem answerReadParameter_state (m : Master) (n : Byte) (s : State) : (answerReadParameter m n s).1 = s := by
  unfold answerReadParameter
  repeat' split
  all_goals rfl

theorem answerReadDiagnostics_state (m : Master) (p : Byte) (s : State) : (answerReadDiagnostics m p s).1 = s := by
  unfold answerReadDiagnostics
  repeat' split
  all_goals rfl

theorem answerReadAccess_state (m : Master) (s : State) : (answerReadAccess m s).1 = s := by
  unfold answerReadAccess
  split <;> rfl

namespace OpsKeep

variable {owned : Prop} {P R : State → Prop} (K : OpsKeep owned P R) {s : State}
include K

/-! ## Bus rows -/

theorem busShort (b : BusRecord) (hb : b.received.length ≤ 35) (h : P s) : P { s with bus := b } :=
  K.bus b s (Nat.le_trans hb (Nat.le_max_left _ _)) h

theorem busSame (b : BusRecord) (hb : b.received = s.bus.received) (h : P s) : P { s with bus := b } :=
  K.bus b s (by rw [hb]; exact Nat.le_max_right _ _) h

theorem idleBus (h : P s) : P { s with bus := .idle } := K.busShort _ (Nat.zero_le _) h

theorem passedOver (h : P s) : P s.passedOver := K.busShort _ (Nat.zero_le _) h

theorem recordResult (m : Master) (code : Byte) (x : Option Seat) (r : State × ResultCode) (h : P r.1) :
    P (recordResult m code x r) := K.results _ r.1 h

theorem respond (m : Master) (r : State × List Byte) (h : P r.1) : P (respond m r) := K.busShort _ (Nat.zero_le _) h

theorem writeRow (f : State → State) (hf : ∀ s, P s → P (f s)) (h : P s) : P (writeRow f s) := by
  unfold Machine.writeRow
  split
  · exact hf _ (K.idleBus h)
  · exact K.idleBus h

theorem readRow (m : Master) (f : State → State × List Byte) (hf : ∀ s, P s → P (f s).1) (h : P s) : P (readRow m f s) := by
  unfold Machine.readRow
  split
  · exact K.respond m _ (hf _ (K.idleBus h))
  · exact K.passedOver h

/-! ## Settings of a seat -/

theorem raiseChanged (m : Master) (x : Seat) (w : Changed) (h : P s) : P (raiseChanged m x w s) := K.raiseSeat _ _ _ _ _ rfl h

theorem setLevel (z : ZoneId) (v : Setting) (h : P s) : P (s.setLevel z v) := K.modSeat _ _ s (.inr (.inr rfl)) h

theorem storeZone (m : Master) (z : ZoneId) (l : Nat) (h : P s) : P (storeZone m z l s) := by
  unfold Machine.storeZone
  exact K.pass (K.raiseChanged m _ _ (K.evaluateZone z
    (K.setZone z _ _ (.of_same rfl rfl .inl) (K.setLevel z _ h))))

theorem takeSetZone (m : Master) (z l : Byte) (h : P s) : P (takeSetZone m z l s) := by
  refine K.recordResult _ _ _ _ ?_
  unfold ownSetZone
  split
  · exact h
  · split
    · exact K.storeZone m _ _ h
    · exact h

theorem takeSetFan (m : Master) (f l : Byte) (h : P s) : P (takeSetFan m f l s) := by
  refine K.recordResult _ _ _ _ ?_
  unfold ownSetFan
  split
  · exact h
  · split
    · exact K.pass (K.raiseChanged m _ _ (K.handFan true _ (K.modSeat _ _ s (.inr (.inr rfl)) h)))
    · exact h

theorem takeSetSupport (m : Master) (x c : Byte) (v : Half) (h : P s) : P (takeSetSupport m x c v s) := by
  refine K.recordResult _ _ _ _ ?_
  unfold ownSetSupport
  split
  · split
    · split
      · exact h
      · exact K.handSetpoint _ _ _ _ (K.raiseChanged m _ _ (K.setSetpoint _ _ _ h))
    · exact h
  · exact h

theorem clearCabin (m : Master) (h : P s) : P (clearCabin m s) :=
  K.pass (K.raiseChanged m _ _ (K.raiseChanged m _ _ (K.resetAir s h)))

theorem takeResetSeats (m : Master) (h : P s) : P (takeResetSeats m s) := by
  refine K.recordResult _ _ _ _ ?_
  unfold ownResetSeats
  split
  · exact K.clearCabin m h
  · exact h

/-! ## Programs -/

theorem markCursor (m : Master) (x : Seat) (h : P s) : P (markCursor m x s) := by
  unfold Machine.markCursor
  exact K.raiseChanged m _ _ (K.cursor x _ rfl h)

omit K in
theorem atCursor (m : Master) (x : Byte) (f : Seat → State → State × ResultCode) (hf : ∀ y s, P s → P (f y s).1) (h : P s) :
    P (atCursor m x f s).1 := by
  unfold Machine.atCursor
  split
  · exact h
  · split
    · exact hf _ _ h
    · exact h

theorem beginProgram (m : Master) (x : Seat) (p d : Nat) (i : StepIndex) (h : P s) : P (beginProgram m x p d i s) := by
  unfold Machine.beginProgram
  exact K.enterStep _ _ _ (K.markCursor m x (K.cursor x _ rfl (K.cancelVent _ _ (K.withdrawCursor x h))))

theorem takeStartProgram (m : Master) (x p d : Byte) (h : P s) : P (takeStartProgram m x p d s) := by
  refine K.recordResult _ _ _ _ (OpsKeep.atCursor m x _ (fun y u hu => ?_) h)
  unfold startAt
  dsimp only
  split
  · exact hu
  · split
    · exact hu
    · split
      · exact hu
      · split
        · exact hu
        · exact K.beginProgram m y _ _ _ hu

theorem takeAdjustProgram (m : Master) (x i v : Byte) (h : P s) : P (takeAdjustProgram m x i v s) := by
  refine K.recordResult _ _ _ _ (OpsKeep.atCursor m x _ (fun y u hu => ?_) h)
  rw [adjustAt]
  generalize (if clampNat 1 5 i.toNat = i.toNat ∧ clampNat 1 3 v.toNat = v.toNat then ResultCode.ok else .clamped) = r
  split
  · exact hu
  · exact K.markCursor m y (K.cursor y _ rfl hu)

theorem cancelPhaseVent (x : Seat) (h : P s) : P (cancelPhaseVent x s) := by
  unfold Machine.cancelPhaseVent
  split
  · exact K.cancelVent _ s h
  · exact h

theorem takePause (m : Master) (x : Byte) (h : P s) : P (takePause m x s) := by
  refine K.recordResult _ _ _ _ (OpsKeep.atCursor m x _ (fun y u hu => ?_) h)
  unfold pauseAt
  split
  · exact K.markCursor m y (K.cursor y _ rfl (K.cancelPhaseVent y (K.withdrawCursor y hu)))
  · exact hu

theorem resumePhase (x : Seat) (h : P s) : P (resumePhase x s) := by
  unfold Machine.resumePhase
  split
  · exact h
  · rename_i f hf
    have own : owned → massageOnly f := fun o => K.copyOwned o s x f h hf
    split
    · exact K.beginVent x _ (fun o => (own o).1) h
    · exact K.beginFillWait x _ (fun o => (own o).2) h
    · exact K.beginFillWait x _ (fun o => (own o).2) h
    all_goals exact h

theorem takeResume (m : Master) (x : Byte) (h : P s) : P (takeResume m x s) := by
  refine K.recordResult _ _ _ _ (OpsKeep.atCursor m x _ (fun y u hu => ?_) h)
  unfold resumeAt
  split
  · exact K.resumePhase y (K.markCursor m y (K.cursor y _ rfl hu))
  · exact hu

theorem takeStopProgram (m : Master) (x : Byte) (h : P s) : P (takeStopProgram m x s) := by
  refine K.recordResult _ _ _ _ (OpsKeep.atCursor m x _ (fun y u hu => ?_) h)
  unfold stopAt
  split
  · exact K.enterEnding y _ (K.markCursor m y hu)
  · exact K.enterEnding y _ (K.markCursor m y hu)
  · exact K.markCursor m y (K.idleCursor y _ rfl hu)
  all_goals exact hu

/-! ## Budget, parameters, store, access and notices -/

theorem recomputeBudget (b : Budget) (hb : b.result = s.budget.result) (h : P s) :
    R (recomputeCeiling { s with budget := b }) := K.recompute s b s.supply s.supplyTimer hb h

theorem takeSetCeiling (m : Master) (c : Half) (h : P s) : P (takeSetCeiling m c s) := by
  refine K.recordResult _ _ _ _ ?_
  unfold ownSetCeiling
  split
  · exact K.runPass _ (K.recomputeBudget _ rfl h)
  · exact h

theorem stepZoneDown (z : ZoneId) (h : P s) : P (stepZoneDown z s) := by
  unfold Machine.stepZoneDown
  exact K.pass (K.raiseSeat _ _ _ _ _ rfl (K.evaluateZone z
    (K.setZone z _ _ (.of_same rfl rfl .inl) (K.setLevel z _ h))))

theorem stepDownWritten (z : ZoneId) (h : P s) : P (stepDownWritten z s) := by
  unfold Machine.stepDownWritten
  split
  · exact K.setZone z _ _ (.of_same rfl rfl .inl) h
  · split
    · exact K.stepZoneDown z h
    · exact h

theorem limitWritten (z : ZoneId) (h : P s) : P (limitWritten z s) := by
  unfold Machine.limitWritten
  split
  · dsimp only
    split
    · exact K.evaluateZone z h
    · exact K.pass (K.evaluateZone z h)
  · exact h

theorem enterVacating (x : Seat) (h : P s) : P (enterVacating x s) :=
  K.pass (K.modSeat x _ s (.inr (.inl rfl)) h)

theorem occupied (x : Seat) (h : P s) : P (setOccupancy x .occupied .stopped s) := K.modSeat x _ s (.inr (.inl rfl)) h

theorem enterOccupied (x : Seat) (h : P s) : P (enterOccupied x s) := by
  have loads : P (Machine.occupyLoads x (raiseOccupancy x .occupied (setOccupancy x .occupied .stopped s))) :=
    K.occupyLoads x (K.raiseSeat _ _ _ _ _ rfl (K.occupied x h))
  unfold Machine.enterOccupied
  dsimp only
  split
  · exact h
  · exact K.pass (K.occupied x h)
  · exact K.pass loads
  · exact K.pass (K.selectCell x loads)

theorem overrideWritten (x : Seat) (was : Bool) (h : P s) : P (overrideWritten x was s) := by
  unfold Machine.overrideWritten
  split
  · exact h
  · split
    · exact K.enterOccupied x h
    · split
      · exact K.enterVacating x h
      · exact h

theorem refreshTimeWritten (h : P s) : P (refreshTimeWritten s) := by
  unfold Machine.refreshTimeWritten
  split
  · exact K.modBudget _ s ⟨rfl, rfl, rfl, rfl⟩ h
  · exact h

theorem parkingWritten (h : P s) : P (parkingWritten s) := by
  unfold Machine.parkingWritten
  split
  · exact h
  · exact K.parkLast s h

omit K in
theorem ite {c : Prop} [Decidable c] {a b : State} (ha : c → P a) (hb : ¬ c → P b) : P (if c then a else b) := by
  split
  · exact ha ‹_›
  · exact hb ‹_›

/-- The owners' part of a write, but for the shed ceiling and the rotation limit. -/
theorem parameterWritten (n : Nat) (was : Seat → Bool) (h44 : n ≠ 44) (h52 : n ≠ 52) (h : P s) :
    P (parameterWritten n was s) := by
  have loads : P (stepDownTimeWritten s) := LoadsKeep.foldl _ (fun u z hu => K.stepDownWritten z hu) _ h
  unfold Machine.parameterWritten
  refine ite (fun _ => h) fun _ => ite (fun _ => ?limit) fun _ => ite (fun _ => h) fun _ => ite (fun _ => K.pass h) fun _ =>
    ite (fun _ => loads) fun _ => ite (fun _ => K.pass h) fun _ => ite (fun _ => K.refreshTimeWritten h) fun _ =>
    ite (fun _ => h) fun _ => ite (fun e => absurd e h44) fun _ => ite (fun _ => K.pass h) fun _ =>
    ite (fun e => absurd e h52) fun _ => ite (fun _ => K.parkingWritten h) fun _ =>
    ite (fun _ => K.overrideWritten _ _ h) fun _ => ite (fun _ => K.overrideWritten _ _ h) fun _ => h
  case limit =>
    split
    · exact K.limitWritten _ h
    · exact h

theorem storeParameter (n : Nat) (v : Nat) (hn : n ≤ 59) (h : P s) :
    P (storeParameter n (nearestAllowed (paramRange n) v) s) := by
  unfold Machine.storeParameter
  by_cases h44 : n = 44
  · subst h44
    exact K.runPass _ (K.putShed v s h)
  · by_cases h52 : n = 52
    · subst h52
      exact K.putRotation v s h
    · exact K.parameterWritten n _ h44 h52 (K.putParam n v s hn h44 h52 h)

theorem takeWriteParameter (m : Master) (n : Byte) (v : Half) (h : P s) : P (takeWriteParameter m n v s) := by
  refine K.recordResult _ _ _ _ ?_
  unfold ownWriteParameter
  split
  · split
    · exact h
    · exact K.storeParameter _ _ (by omega) h
  · exact h

theorem clearSteps (h : P s) : P (clearSteps s) := by
  unfold Machine.clearSteps
  dsimp only
  split
  · rename_i hd
    exact K.modBudget _ s ⟨rfl, rfl, hd.symm, rfl⟩ h
  · exact K.runPass _ (K.recomputeBudget _ rfl h)

theorem clearDerate (h : P s) : P (clearDerate s) :=
  K.modBudget _ _ ⟨rfl, rfl, rfl, rfl⟩ (K.clearSteps h)

theorem takeClearDiagnostics (m : Master) (h : P s) : P (takeClearDiagnostics m s) := by
  refine K.recordResult _ _ _ _ ?_
  unfold ownClearDiagnostics
  split
  · exact K.clearDerate (K.clearLog s h)
  · exact h

theorem takeWriteEntry (m : Master) (p v f d : Byte) (h : P s) : P (takeWriteEntry m p v f d s) := by
  refine K.recordResult _ _ _ _ ?_
  unfold ownWriteEntry
  split
  · split
    · exact h
    · split
      · exact h
      · split
        · exact h
        · exact K.putEntry _ _ s (by omega) (by omega) h
  · exact h

theorem takeWriteAccess (m : Master) (k r v : Byte) (h : P s) : P (takeWriteAccess m k r v s) := by
  refine K.recordResult _ _ _ _ ?_
  unfold ownWriteAccess
  split
  · split
    · split
      · exact h
      · rename_i hne
        exact K.storeRight _ _ _ s hne h
    · exact h
  · exact h

theorem takeSetMask (m : Master) (k : Half) (h : P s) : P (takeSetMask m k s) := by
  refine K.recordResult _ _ _ _ ?_
  unfold ownSetMask
  split
  · exact K.storeMask m k s h
  · exact h

/-! ## Reads -/

theorem answerReadStep (m : Master) (i : Byte) (h : P s) : P (answerReadStep m i s).1 := by
  unfold Machine.answerReadStep
  split
  · exact K.readRecord i s h
  · exact h

theorem answerTakeNotice (m : Master) (h : P s) : P (answerTakeNotice m s).1 := by
  unfold Machine.answerTakeNotice
  split
  · exact h
  · exact K.removeNotice m _ s h

theorem takeRead (m : Master) (c : Command) (d : List Byte) (h : P s) : P (takeRead m c d s).1 := by
  cases c with
  | readSeat => match d with
    | [_, _] => exact (answerReadSeat_state m _ _ s).symm ▸ h
    | [] | [_] | _ :: _ :: _ :: _ => exact h
  | readBudget => match d with
    | [_] => exact (answerReadBudget_state m _ s).symm ▸ h
    | [] | _ :: _ :: _ => exact h
  | readStep => match d with
    | [_] => exact K.answerReadStep m _ h
    | [] | _ :: _ :: _ => exact h
  | readProgramEntry => match d with
    | [_] => exact (answerReadEntry_state m _ s).symm ▸ h
    | [] | _ :: _ :: _ => exact h
  | readParameter => match d with
    | [_] => exact (answerReadParameter_state m _ s).symm ▸ h
    | [] | _ :: _ :: _ => exact h
  | readDiagnostics => match d with
    | [_] => exact (answerReadDiagnostics_state m _ s).symm ▸ h
    | [] | _ :: _ :: _ => exact h
  | readAccess => match d with
    | [] => exact (answerReadAccess_state m s).symm ▸ h
    | _ :: _ => exact h
  | takeNotice => match d with
    | [] => exact K.answerTakeNotice m h
    | _ :: _ => exact h
  | readNotices => match d with
    | [] | _ :: _ => exact h
  | readResult => match d with
    | [] | _ :: _ => exact h
  | _ => exact h

/-! ## The wire -/

theorem startTransaction (a : Byte) (h : P s) : P (startTransaction a s) := by
  have f := K.passedOver h
  unfold Machine.startTransaction
  dsimp only
  split
  · split
    · exact K.busShort _ (Nat.zero_le _) f
    · exact K.respond _ _ f
    · exact f
  · exact f

theorem receiveByte (b : Byte) (h : P s) : P (receiveByte b s) := by
  unfold Machine.receiveByte
  dsimp only
  split
  · refine K.bus _ s ?_ h
    unfold BusRecord.keepByte
    split
    · rename_i hl
      simp only [List.length_append, List.length_singleton]
      have : s.bus.received.length < 35 := hl
      omega
    · exact Nat.le_max_right _ _
  all_goals exact K.busSame _ rfl h

theorem answerRequest (m : Master) (b : List Byte) (o : Bool) (h : P s) : P (answerRequest m b o s).1 := by
  unfold Machine.answerRequest
  split
  · exact h
  · split
    · split
      · exact h
      · exact K.takeRead m _ _ h
    · exact h

theorem continueTransaction (a : Byte) (h : P s) : P (continueTransaction a s) := by
  unfold Machine.continueTransaction
  split
  · exact K.passedOver h
  · exact K.busShort _ (Nat.zero_le _) h
  · split
    · split
      · exact K.respond _ _ (K.answerRequest _ _ _ h)
      all_goals exact K.respond _ _ h
    · exact K.passedOver h

theorem repeatStart (a : Byte) (h : P s) : P (repeatStart a s) := by
  unfold Machine.repeatStart
  split
  · exact K.startTransaction a h
  all_goals exact K.continueTransaction a h

theorem clockByte (b : Bool) (h : P s) : P (clockByte b s) := by
  unfold Machine.clockByte
  dsimp only
  split
  all_goals exact K.busSame _ rfl h

theorem resetInterface (h : P s) : P (resetInterface s) := K.busShort _ (Nat.zero_le _) h

theorem expireTransaction (h : P s) : P (expireTransaction s) := by
  unfold Machine.expireTransaction
  split
  · exact K.resetInterface h
  · exact h

theorem expireBusLow (h : P s) : P (expireBusLow s) := by
  unfold Machine.expireBusLow
  split
  · exact K.resetInterface h
  · exact h

/-! ## Events -/

theorem debouncedChange (x : Seat) (b : Bool) (h : P s) : P (debouncedChange x b s) := by
  unfold Machine.debouncedChange
  split
  · exact h
  · split
    · exact K.enterOccupied x h
    · split
      · exact K.enterVacating x h
      · exact h

theorem changeInput (x : Seat) (b : Bool) (h : P s) : P (changeInput x b s) := by
  unfold Machine.changeInput
  split
  · exact h
  · exact K.modSeat x _ s (.inr (.inr rfl)) h

theorem expireDebounce (x : Seat) (h : P s) : P (expireDebounce x s) := by
  have t : P (s.modSeat x fun r => { r with debounceTimer := none, debounced := r.rawLevel }) :=
    K.modSeat x _ s (.inr (.inr rfl)) h
  unfold Machine.expireDebounce
  dsimp only
  split
  · exact h
  · split
    · exact t
    · exact K.debouncedChange x _ t

theorem standbyCursor (x : Seat) (h : P s) : P (standbyCursor x s) := by
  unfold Machine.standbyCursor
  split
  · exact K.enterEnding x _ h
  · exact K.enterEnding x _ h
  all_goals exact h

theorem expireVacancy (x : Seat) (h : P s) : P (expireVacancy x s) := by
  unfold Machine.expireVacancy
  split
  · exact K.pass (K.raiseSeat _ _ _ _ _ rfl (K.standbyCursor x (K.idleLoads x _ s rfl h)))
  · exact h

theorem expireClear (x : Seat) (h : P s) : P (expireClear x s) := by
  unfold Machine.expireClear
  split
  · exact K.pass (K.raiseSeat _ _ _ _ _ rfl (K.emptyRegulator x (K.emptySeat x _ _ s rfl (fun _ => rfl) h)))
  · exact h

theorem checkOverdraw (h : P s) : R (checkOverdraw s) := by
  unfold Machine.checkOverdraw
  dsimp only
  split
  · split
    · exact K.beforePass _ (K.modBudget _ s ⟨rfl, rfl, rfl, rfl⟩ h)
    · exact K.raiseDevice _ _ _ rfl (K.recomputeBudget (s := s)
        { s.budget with overdrawRun := 0, stepPeak := none, derate := min 3 (s.budget.derate + 1) } rfl h)
  · exact K.beforePass _ (K.modBudget _ s ⟨rfl, rfl, rfl, rfl⟩ h)

theorem completeScan (v : PerSeat (Five Int)) (sum count : Nat) (h : P s) : P (completeScan v sum count s) :=
  K.scanPass _ (K.checkOverdraw (K.supply _ _ _ rfl (K.scanZones (K.storeScan v _ (K.scanned _ _ s h)))))

theorem startZoneFrame (z : ZoneId) (h : P s) : P (startZoneFrame z s) :=
  K.frame _ _ _ (K.setZone z _ s (.of_same rfl rfl fun e => .inr (by simpa [openWindow] using e)) h)

theorem judgeWindow (z : ZoneId) (c : Nat) (h : P s) : P (judgeWindow z c s) := by
  obtain ⟨hr, hg, ho⟩ := closeWindow_keeps (s.zone z)
  have close (n : Nat) : P (s.setZone z { closeWindow (s.zone z) with openLoad := n }) :=
    K.setZone z _ s (.of_same hr hg fun e => .inl (ho e)) h
  unfold Machine.judgeWindow
  dsimp only
  split
  · split
    · split
      · exact K.pass (K.latchZone z _ (close _))
      · exact close _
    · exact close _
  · exact h

theorem compareCurrent (z : ZoneId) (c : Nat) (h : P s) : P (compareCurrent z c s) := by
  unfold Machine.compareCurrent
  split
  · exact K.pass (K.latchZone z _ h)
  · exact h

theorem reachStepDown (z : ZoneId) (h : P s) : P (reachStepDown z s) := by
  unfold Machine.reachStepDown
  split
  · exact K.stepZoneDown z h
  · exact h

theorem pulseFan (f : FanId) (h : P s) : P (pulseFan f s) := by
  unfold Machine.pulseFan
  split
  · exact K.setFan f _ s (.of_same rfl rfl) h
  · exact h

theorem stallFan (f : FanId) (h : P s) : P (stallFan f s) := by
  obtain ⟨hg, hd⟩ := stallChannel_off (s.fan f)
  have k : P (s.setFan f (stallChannel (s.fan f))) := K.setFan f _ s (.of_off hg hd) h
  unfold Machine.stallFan
  dsimp only
  split
  · split
    · exact K.pass k
    · exact K.pass (K.raiseSeat _ _ _ _ _ rfl k)
  · exact h

theorem expireRetry (f : FanId) (h : P s) : P (expireRetry f s) := by
  have k : P (Machine.rederiveFan f (s.setFan f (restartChannel (s.fan f)))) :=
    K.rederiveFan f (K.setFan f _ s (.of_same rfl rfl) h)
  unfold Machine.expireRetry
  dsimp only
  split
  · split
    · exact k
    · exact K.pass k
  · exact h

theorem completeCleanRun (f : FanId) (h : P s) : P (completeCleanRun f s) := by
  unfold Machine.completeCleanRun
  dsimp only
  split
  · exact K.setFan f _ s (.of_same rfl rfl) h
  · exact h

theorem expireRefresh (h : P s) : P (expireRefresh s) := by
  unfold Machine.expireRefresh
  split
  · exact h
  · exact h
  · exact K.runPass _ (K.raiseDevice .lease (.lease s.defaultCeiling) _ rfl
      (K.recomputeBudget { s.budget with ceiling := s.defaultCeiling, refresh := none } rfl h))

/-- A sample that is not the loss of the supply. -/
theorem sampleSupply (v : Nat) (hv : ¬ v < 60) (h : P s) : P (sampleSupply v s) := by
  unfold Machine.sampleSupply
  rw [if_neg hv]
  dsimp only
  split
  · exact K.supply _ _ s rfl h
  · exact K.runPass _ (K.raiseDevice _ _ _ rfl (K.recompute s s.budget _ _ rfl h))

theorem sampleManifolds (l r : Int) (h : P s) : P (sampleManifolds l r s) :=
  K.burstCut _ _ (K.burstCut _ _ (K.sample l r s h))

theorem expireRise (h : P s) : P (expireRise s) := by
  have cut : P (Machine.leakCut .right (Machine.leakCut .left s)) := K.leakCut _ (K.leakCut _ h)
  unfold Machine.expireRise
  split
  · rename_i g hg
    split
    · dsimp only
      split
      · exact K.finishFill g _ s hg h
      · exact K.riseOver g s hg h
    · exact cut
  · exact cut

theorem expireFill (h : P s) : P (expireFill s) := by
  unfold Machine.expireFill
  split
  · rename_i g hg
    split
    · exact K.finishFill g _ s hg h
    · exact h
  · exact h

theorem endDwell (x : Seat) (h : P s) : P (endDwell x s) := by
  unfold Machine.endDwell
  split
  · exact K.advanceCursor x h
  · exact h

theorem expireProgram (x : Seat) (h : P s) : P (expireProgram x s) := by
  unfold Machine.expireProgram
  split
  · exact K.enterEnding x _ h
  · exact h

theorem expireSupport (x : Seat) (h : P s) : P (expireSupport x s) := by
  unfold Machine.expireSupport
  split
  · exact K.refreshRegulator x h
  · exact h

/-! ## Every command -/

/-- Every command that may not rewrite a step record keeps the law. -/
theorem effectOf (c : Instr) (hc : rewritesStore c = false) (h : P s) : P (effectOf c s) := by
  cases c with
  | powerOn => cases hc
  | busStop => cases hc
  | writeStep => cases hc
  | lossOfSupply => cases hc
  | transactionStart a => exact K.startTransaction a h
  | frameByte b => exact K.receiveByte b h
  | repeatedStart a => exact K.repeatStart a h
  | responseByte b => exact K.clockByte b h
  | transactionTimeout => exact K.expireTransaction h
  | busLowTimeout => exact K.expireBusLow h
  | setZone m z l => exact K.writeRow _ (fun _ => K.takeSetZone m z l) h
  | setFan m f l => exact K.writeRow _ (fun _ => K.takeSetFan m f l) h
  | setSupport m x c v => exact K.writeRow _ (fun _ => K.takeSetSupport m x c v) h
  | startProgram m x p d => exact K.writeRow _ (fun _ => K.takeStartProgram m x p d) h
  | adjustProgram m x i v => exact K.writeRow _ (fun _ => K.takeAdjustProgram m x i v) h
  | pause m x => exact K.writeRow _ (fun _ => K.takePause m x) h
  | resume m x => exact K.writeRow _ (fun _ => K.takeResume m x) h
  | stopProgram m x => exact K.writeRow _ (fun _ => K.takeStopProgram m x) h
  | resetSeats m => exact K.writeRow _ (fun _ => K.takeResetSeats m) h
  | setCeiling m c => exact K.writeRow _ (fun _ => K.takeSetCeiling m c) h
  | writeProgramEntry m p v f d => exact K.writeRow _ (fun _ => K.takeWriteEntry m p v f d) h
  | writeParameter m n v => exact K.writeRow _ (fun _ => K.takeWriteParameter m n v) h
  | clearDiagnostics m => exact K.writeRow _ (fun _ => K.takeClearDiagnostics m) h
  | writeAccess m k r v => exact K.writeRow _ (fun _ => K.takeWriteAccess m k r v) h
  | setNoticeMask m k => exact K.writeRow _ (fun _ => K.takeSetMask m k) h
  | readSeat m x p => exact K.readRow m _ (fun u hu => by rw [answerReadSeat_state]; exact hu) h
  | readBudget m p => exact K.readRow m _ (fun u hu => by rw [answerReadBudget_state]; exact hu) h
  | readStep m i => exact K.readRow m _ (fun _ => K.answerReadStep m i) h
  | readProgramEntry m p => exact K.readRow m _ (fun u hu => by rw [answerReadEntry_state]; exact hu) h
  | readParameter m n => exact K.readRow m _ (fun u hu => by rw [answerReadParameter_state]; exact hu) h
  | readDiagnostics m p => exact K.readRow m _ (fun u hu => by rw [answerReadDiagnostics_state]; exact hu) h
  | readAccess m => exact K.readRow m _ (fun u hu => by rw [answerReadAccess_state]; exact hu) h
  | takeNotice m => exact K.readRow m _ (fun _ => K.answerTakeNotice m) h
  | readNotices m => exact K.readRow m _ (fun _ hu => hu) h
  | readResult m => exact K.readRow m _ (fun _ hu => hu) h
  | occupancyInputChange x b => exact K.changeInput x b h
  | debounceExpiry x => exact K.expireDebounce x h
  | vacancyDelayExpiry x => exact K.expireVacancy x h
  | clearTimeExpiry x => exact K.expireClear x h
  | scanCompletion v sum count => exact K.completeScan v sum count h
  | zoneFrameStart z => exact K.startZoneFrame z h
  | onWindowEnd z c => exact K.judgeWindow z c h
  | overcurrent z c => exact K.compareCurrent z c h
  | stepDown z => exact K.reachStepDown z h
  | tachPulse f => exact K.pulseFan f h
  | fanStall f => exact K.stallFan f h
  | retryTimerExpiry f => exact K.expireRetry f h
  | cleanRunComplete f => exact K.completeCleanRun f h
  | ceilingRefreshExpiry => exact K.expireRefresh h
  | supplySample v => exact K.sampleSupply v (by simpa [rewritesStore] using hc) h
  | manifoldSample l r => exact K.sampleManifolds l r h
  | selectorArrival => exact K.arrive _ h
  | riseWindowExpiry => exact K.expireRise h
  | maximumFillExpiry => exact K.expireFill h
  | ventEnd o => exact K.endVent o _ h
  | cellBitError i => exact K.disturb i _ h
  | dwellEnd x => exact K.endDwell x h
  | programTimerExpiry x => exact K.expireProgram x h
  | supportRefreshExpiry x => exact K.expireSupport x h

/-- A command that may not rewrite a step record keeps the law, of the part and of the part kept apart. -/
theorem exec_inEither (c : Instr) (hc : rewritesStore c = false) {t : State} (hs : s.inEither P) (ht : exec c s = .next t) :
    t.inEither P := by
  rw [exec_eq_taken c s (by intro ads l r v e; rw [e] at hc; cases hc) (by intro e; rw [e] at hc; cases hc)] at ht
  exact taken_inEither P K.part _ (fun u hu => K.settle _ (K.effectOf c hc hu)) hs ht

end OpsKeep

/-! ## Every step -/

/-- A law of the part that the shared operations, a write of a record, the supply and the clock keep. -/
structure StepKeep (owned : Prop) (P R : State → Prop) : Prop extends OpsKeep owned P R where
  putRam : ∀ i r s, inRom i = false → (∀ f, r.content = some f → massageOnly f) → P s → P (s.putRam i r) := by
    intro i r s _ _ h; exact h
  powerOn : ∀ ads l r v s, P (powerOnPass (poweredUp ads l r v s))
  loseSupply : ∀ s, P (loseSupply s)
  later : ∀ s, P s → P s.later := by intro s h; exact h

/-- An accepted record names massage cells alone (spec/06 R116). -/
theorem carriedRecord_massageOnly (d : StepData) (h : badRecord d = false) : massageOnly (carriedRecord d) := by
  simp only [badRecord, Bool.or_eq_false_iff, namesHoldCell, bne_eq_false_iff_eq] at h
  obtain ⟨⟨⟨hv, hf⟩, -⟩, -⟩ := h
  exact ⟨hv, hf⟩

namespace StepKeep

variable {owned : Prop} {P R : State → Prop} (K : StepKeep owned P R) {s : State}
include K

theorem takeWriteStep (m : Master) (d : StepData) (h : P s) : P (takeWriteStep m d s) := by
  refine K.recordResult _ _ _ _ ?_
  unfold ownWriteStep
  split
  · split
    · exact h
    · rename_i hr
      split
      · exact K.putRam _ _ s (by simpa using hr) (by intro f e; cases e) h
      · split
        · split
          · exact h
          · rename_i hb
            refine K.putRam _ _ s (by simpa using hr) (fun f e => ?_) h
            cases e
            exact carriedRecord_massageOnly d (by simpa using hb)
        · exact h
  · exact h

theorem takeWrite (m : Master) (c : Command) (d : List Byte) (h : P s) : P (takeWrite m c d s) := by
  cases c with
  | setZone => match d with
    | [_, _] => exact K.takeSetZone m _ _ h
    | [] | [_] | _ :: _ :: _ :: _ => exact h
  | setFan => match d with
    | [_, _] => exact K.takeSetFan m _ _ h
    | [] | [_] | _ :: _ :: _ :: _ => exact h
  | setSupport => match d with
    | [_, _, _, _] => exact K.takeSetSupport m _ _ _ h
    | [] | [_] | [_, _] | [_, _, _] | _ :: _ :: _ :: _ :: _ :: _ => exact h
  | startProgram => match d with
    | [_, _, _] => exact K.takeStartProgram m _ _ _ h
    | [] | [_] | [_, _] | _ :: _ :: _ :: _ :: _ => exact h
  | adjustProgram => match d with
    | [_, _, _] => exact K.takeAdjustProgram m _ _ _ h
    | [] | [_] | [_, _] | _ :: _ :: _ :: _ :: _ => exact h
  | pause => match d with
    | [_] => exact K.takePause m _ h
    | [] | _ :: _ :: _ => exact h
  | resume => match d with
    | [_] => exact K.takeResume m _ h
    | [] | _ :: _ :: _ => exact h
  | stopProgram => match d with
    | [_] => exact K.takeStopProgram m _ h
    | [] | _ :: _ :: _ => exact h
  | resetSeats => match d with
    | [] => exact K.takeResetSeats m h
    | _ :: _ => exact h
  | setCeiling => match d with
    | [_, _] => exact K.takeSetCeiling m _ h
    | [] | [_] | _ :: _ :: _ :: _ => exact h
  | writeStep =>
    show P (match stepDataOf d with | some e => Machine.takeWriteStep m e s | none => s)
    split
    · exact K.takeWriteStep m _ h
    · exact h
  | writeProgramEntry => match d with
    | [_, _, _, _] => exact K.takeWriteEntry m _ _ _ _ h
    | [] | [_] | [_, _] | [_, _, _] | _ :: _ :: _ :: _ :: _ :: _ => exact h
  | writeParameter => match d with
    | [_, _, _] => exact K.takeWriteParameter m _ _ h
    | [] | [_] | [_, _] | _ :: _ :: _ :: _ :: _ => exact h
  | clearDiagnostics => match d with
    | [] => exact K.takeClearDiagnostics m h
    | _ :: _ => exact h
  | writeAccess => match d with
    | [_, _, _] => exact K.takeWriteAccess m _ _ _ h
    | [] | [_] | [_, _] | _ :: _ :: _ :: _ :: _ => exact h
  | setNoticeMask => match d with
    | [_, _] => exact K.takeSetMask m _ h
    | [] | [_] | _ :: _ :: _ :: _ => exact h
  | _ => exact h

theorem stopTransaction (h : P s) : P (stopTransaction s) := by
  have idle := K.idleBus h
  unfold Machine.stopTransaction
  dsimp only
  split
  · split
    · exact idle
    · unfold takeFrame
      split
      · exact K.results _ _ idle
      · exact K.takeWrite _ _ _ idle
  · exact idle

/-- Every command keeps the law. -/
theorem effectOf (c : Instr) (h : P s) : P (effectOf c s) := by
  by_cases hc : rewritesStore c = false
  · exact K.toOpsKeep.effectOf c hc h
  · cases c with
    | powerOn => exact h
    | lossOfSupply => exact h
    | busStop => exact K.stopTransaction h
    | writeStep m d => exact K.writeRow _ (fun _ => K.takeWriteStep m d) h
    | supplySample v =>
      have hv : v < 60 := by simpa [rewritesStore] using hc
      show P (sampleSupply v s)
      rw [sampleSupply, if_pos hv]
      exact K.loseSupply s
    | _ => exact absurd rfl hc

/-- A command keeps the law, of the part and of the part kept apart. -/
theorem exec_inEither (c : Instr) {t : State} (hs : s.inEither P) (ht : exec c s = .next t) : t.inEither P := by
  by_cases hp : ∃ ads l r v, c = .powerOn ads l r v
  · obtain ⟨ads, l, r, v, rfl⟩ := hp
    cases ht
    unfold powerUp
    split
    · exact hs
    · exact ⟨K.powerOn ads l r v s, fun p e => by cases e⟩
  · by_cases hl : c = .lossOfSupply
    · subst hl
      cases ht
      exact ⟨K.loseSupply s, fun p e => by cases e⟩
    · rw [exec_eq_taken c s (fun ads l r v e => hp ⟨ads, l, r, v, e⟩) hl] at ht
      exact taken_inEither P K.part _ (fun u hu => K.settle _ (K.effectOf c hu)) hs ht

/-- The principle: what the shared operations, the supply and the clock keep, every step keeps. -/
theorem step_inEither {t : State} (hs : s.inEither P) (ht : step s = .next t) : t.inEither P := by
  unfold step at ht
  split at ht
  · cases ht
    unfold tick
    split
    · exact ⟨K.later s hs.1, fun p e => by cases e⟩
    · exact hs
  · rename_i c rest _
    refine K.exec_inEither (s := { s with pending := rest }) c ⟨K.part s _ rfl hs.1, fun p e => ?_⟩ ht
    exact K.part (s.shutApart p) _ rfl (hs.2 p e)

end StepKeep

end Sys2Proof.Machine
end
section
/-! PROOFS. What every step keeps of the store, the rights, the bus record and the attention lines (O51, O52, O53). -/
namespace Sys2Proof.Machine

/-! ## The store, the directory and the parameters -/

/-- A checked read keeps the canonical form of the store: what it corrects lies in RAM. -/
theorem readRecord_wf (i : StepIndex) (s : State) (h : Memory.wf s.ram = true) : Memory.wf (readRecord i s).ram = true := by
  unfold readRecord
  split
  · rename_i hs
    have hi : inRom i = false := by
      cases e : inRom i with
      | false => rfl
      | true => simp [State.storeAnswer, e] at hs
    unfold correctRecord
    dsimp only
    split
    · exact putRam_wf s i _ h hi
    · rw [raiseDevice_touches]
      exact putRam_wf s i _ h hi
  · unfold failRead
    rw [raiseDevice_touches]
    exact h
  · exact h
  · exact h

/-- A pass and the reports it leads to keep the canonical form of the store. -/
theorem Stirs.ram_wf {P : Seat → Prop} {s t : State} (k : Stirs P s t) (h : Memory.wf s.ram = true) : Memory.wf t.ram = true := by
  induction k with
  | same | air _ _ _ ih | reports _ _ ih | releases _ _ ih | cursor _ _ _ _ _ ih | regulator _ _ _ _ ih | zeroSetpoint _ _ _ ih
  | underfill _ _ ih => assumption
  | raised _ n reached m _ ih => rw [deliver_touches]; exact ih
  | pass _ ih => rw [passCore_touches]; exact ih
  | read _ i ih => exact readRecord_wf i _ ih

theorem Stirs.stored {P : Seat → Prop} {s t : State} (k : Stirs P s t) (h : s.stored) : t.stored := by
  obtain ⟨hr, hd, hp⟩ := h
  exact ⟨k.ram_wf hr, by rw [directory_of_bystander k.bystander]; exact hd, by rw [params_of_bystander k.bystander]; exact hp⟩

/-- A law of the part alone does not see what the model holds beside it. -/
theorem stored_of_part (s t : State) (e : s.toPart = t.toPart) (h : s.stored) : t.stored := by
  show Memory.wf t.toPart.ram = true ∧ Directory.wf t.toPart.directory = true ∧ Params.wf t.toPart.params = true
  rw [← e]; exact h

theorem reset_stored : State.reset.stored := ⟨rfl, rfl, rfl⟩

theorem putParam_stored (n v : Nat) (s : State) (hn : n ≤ 59) (h : s.stored) :
    (s.putParam n (nearestAllowed (paramRange n) v)).stored := by
  obtain ⟨hr, hd, hp⟩ := h
  exact ⟨hr, hd, putParam_wf s n v hp hn⟩

/-- A bit error on a record of ROM does not reach it; one on a record of RAM rewrites its weight. -/
theorem disturb_stored (i : StepIndex) (s : State) (h : s.stored) : (disturb i s).stored := by
  unfold disturb
  split
  · exact h
  · rename_i hi
    exact ⟨putRam_wf s i _ h.1 (by simpa using hi), h.2⟩

/-- Every step keeps the store, the directory and the parameters in order. -/
theorem stored_keep : StepKeep False State.stored State.stored where
  toAirKeep := .of_stirs stored_of_part (fun _ _ k => k.stored) (fun _ _ _ h => h) (fun _ _ h => h)
  idleLoads := LoadsKeep.idleLoads (P := State.stored) {} fun _ _ _ h => h
  emptySeat := LoadsKeep.emptySeat (P := State.stored) {} (fun _ _ _ h => h) (fun _ _ _ _ h => h) fun _ _ h => h
  readRecord i s h := Stirs.stored (P := fun _ => True) (.read (.same s) i) h
  disturb := disturb_stored
  putEntry n e s hlo hhi h := ⟨h.1, putEntry_wf s n e h.2.1 hlo hhi, h.2.2⟩
  putParam n v s hn _ _ h := putParam_stored n v s hn h
  putShed v s h := putParam_stored 44 v s (by decide) h
  putRotation v s h := putParam_stored 52 v s (by decide) h
  putRam i r s hi _ h := ⟨putRam_wf s i r h.1 hi, h.2⟩
  powerOn _ _ _ _ _ := reset_stored
  loseSupply _ := reset_stored

/-! ## The GATEWAY's right over ACCESS, and the received bytes -/

theorem storeRight_gatewayRules (who : Master) (r : Region) (v : Right) (s : State) (hn : ¬ (who = .gateway ∧ r = .access))
    (h : s.gatewayRules) : (storeRight who r v s).gatewayRules := by
  show ((s.access.set who _).get .gateway).get .access = .readWrite
  by_cases hw : who = .gateway
  · subst hw
    have hr : Region.access ≠ r := fun e => hn ⟨rfl, e.symm⟩
    rw [PerMaster.get_set_same, Rights.get_set_other _ _ _ _ hr]
    exact h
  · rw [PerMaster.get_set_other _ _ _ _ (Ne.symm hw)]
    exact h

theorem gatewayRules_keep : StepKeep False State.gatewayRules State.gatewayRules where
  toAirKeep := .of_stirs (fun s t e h => by show (t.toPart.access.get _).get _ = _; rw [← e]; exact h)
    (fun s t k h => by show (t.access.get _).get _ = _; rw [access_of_bystander k.bystander]; exact h)
    (fun _ _ _ h => h) (fun _ _ h => h)
  idleLoads := LoadsKeep.idleLoads (P := State.gatewayRules) {} fun _ _ _ h => h
  emptySeat := LoadsKeep.emptySeat (P := State.gatewayRules) {} (fun _ _ _ h => h) (fun _ _ _ _ h => h) fun _ _ h => h
  storeRight := storeRight_gatewayRules
  powerOn _ _ _ _ _ := rfl
  loseSupply _ := rfl

theorem frameFits_keep : StepKeep False State.frameFits State.frameFits where
  toAirKeep := .of_stirs (fun s t e h => by show t.toPart.bus.received.length ≤ 35; rw [← e]; exact h)
    (fun s t k h => by show t.bus.received.length ≤ 35; rw [bus_of_bystander k.bystander]; exact h)
    (fun _ _ _ h => h) (fun _ _ h => h)
  idleLoads := LoadsKeep.idleLoads (P := State.frameFits) {} fun _ _ _ h => h
  emptySeat := LoadsKeep.emptySeat (P := State.frameFits) {} (fun _ _ _ h => h) (fun _ _ _ _ h => h) fun _ _ h => h
  bus b s hb h := Nat.le_trans hb (Nat.max_le.2 ⟨Nat.le_refl _, h⟩)
  powerOn _ _ _ _ _ := Nat.zero_le 35
  loseSupply _ := Nat.zero_le 35

/-- Settles O51: the three laws are kept by every shared operation, and so by every step. -/
theorem stepKeepsStoreAndAccess : Obligations.StepKeepsStoreAndAccess :=
  ⟨fun _ _ => stored_keep.step_inEither, fun _ _ => gatewayRules_keep.step_inEither, fun _ _ => frameFits_keep.step_inEither⟩

end Sys2Proof.Machine
end
section
/-! PROOFS. The pneumatic controller by its single updates: what the arbiter, a fill, a vent and a pass do to a law (spec/05). -/
namespace Sys2Proof.Machine

/-! ## The arbiter -/

/-- A law that a selection keeps: its grants, the parking of a release and the pass on an empty queue. -/
structure ArbiterKeep (P : State → Prop) : Prop where
  part : ∀ s t : State, s.toPart = t.toPart → P s → P t
  idlePass : ∀ s, s.pneu.holder = none → P s → P (passCore s)
  neutral : ∀ s, s.pneu.holder = none → P s → P (orderSelector .neutral s)
  grantMoving : ∀ e s, s.maySelect = true → choose s = some e → P s →
    P (orderSelector (seatPos e.requester.seat) (grantEntry (.granted e) s))
  grantFilling : ∀ e s, s.maySelect = true → choose s = some e → s.pneu.selector = .atRest (seatPos e.requester.seat) →
    startCheck (.granted e) (s.manifoldOf e.requester.seat) = none → P s →
    P (startCompressor (takeP0 (.granted e) (grantEntry (.granted e) s)))
  grantEnded : ∀ e how s, s.maySelect = true → choose s = some e → P s →
    P (endFill (.granted e) how (takeP0 (.granted e) (grantEntry (.granted e) s)))

theorem endFill_holder (h : Holder) (how : FillEnd) (s : State) : (endFill h how s).pneu.holder = none := by
  unfold endFill
  dsimp only
  split <;> rfl

theorem passCore_pneu (s : State) : (passCore s).pneu = s.pneu := by rw [passCore_touches]

/-- A mark of the moment changes nothing that a selection looks at. -/
theorem maySelect_marked {s : State} (b : Bool) (h : s.maySelect = true) : (if b then markSelected s else s).maySelect = true := by
  cases b with
  | false => exact h
  | true =>
    simp only [if_true, markSelected]
    split
    · obtain ⟨hh, hp, -⟩ := (maySelect_iff s).1 h
      exact (maySelect_iff _).2 ⟨hh, hp, by simp⟩
    · exact h

theorem part_marked (b : Bool) (s : State) : (if b then markSelected s else s).toPart = s.toPart := by
  cases b with
  | false => rfl
  | true =>
    simp only [if_true, markSelected]
    split <;> rfl

theorem choose_of_part {s t : State} (h : t.toPart = s.toPart) : choose t = choose s := by
  unfold choose State.rotationLimit State.param
  rw [h]

namespace ArbiterKeep

variable {P : State → Prop} (K : ArbiterKeep P) {s : State}
include K

theorem releaseTail (hn : s.pneu.holder = none) (h : P s) : P (releaseTail s) := by
  have parked : P (if s.parksNowhere then orderSelector .neutral s else s) ∧
      (if s.parksNowhere then orderSelector .neutral s else s).pneu.holder = none := by
    split
    · refine ⟨K.neutral s hn h, ?_⟩
      unfold orderSelector
      split <;> exact hn
    · exact ⟨h, hn⟩
  unfold Machine.releaseTail
  dsimp only
  split
  · exact K.idlePass _ parked.2 parked.1
  · exact parked.1

theorem arbitrate (n : Nat) (b : Bool) (hn : b = true → s.pneu.holder = none) (h : P s) : P (arbitrate n b s) := by
  induction n generalizing s b with
  | zero => exact h
  | succ n ih =>
    simp only [Machine.arbitrate]
    have shut : (if b = true then shutAtRelease s else s).toPart = s.toPart := by
      split
      · unfold shutAtRelease
        split <;> rfl
      · rfl
    replace h := K.part _ _ shut.symm h
    have hn' : b = true → (if b = true then shutAtRelease s else s).pneu.holder = none := fun e => by rw [shut]; exact hn e
    generalize (if b = true then shutAtRelease s else s) = s at h hn'
    split
    · rename_i hm
      split
      · rename_i e he
        have part := part_marked b s
        have hm' := maySelect_marked b hm
        have he' := (choose_of_part part).trans he
        have h' := K.part _ _ part.symm h
        have hs : (if b = true then markSelected s else s).pneu.selector = s.pneu.selector := by rw [part]
        have hp : (if b = true then markSelected s else s).manifoldOf e.requester.seat = s.manifoldOf e.requester.seat := by
          unfold State.manifoldOf
          rw [part]
        generalize (if b = true then markSelected s else s) = u at hm' he' h' hs hp
        split
        · rename_i hr
          split
          · exact ih true (fun _ => endFill_holder _ _ _) (K.grantEnded e _ u hm' he' h')
          · rename_i hc
            exact K.grantFilling e u hm' he' (hs.trans hr) (hp ▸ hc) h'
        · exact K.grantMoving e u hm' he' h'
      · split
        · rename_i hb
          exact K.releaseTail (hn' hb) h
        · exact h
    · split
      · rename_i hb
        exact K.releaseTail (hn' hb) h
      · exact h

theorem select (h : P s) : P (select s) := K.arbitrate _ _ (by intro e; cases e) h

theorem release (hn : s.pneu.holder = none) (h : P s) : P (release s) := K.arbitrate _ _ (fun _ => hn) h

/-- Two laws of the arbiter together. -/
theorem and {Q : State → Prop} (L : ArbiterKeep Q) : ArbiterKeep fun s => P s ∧ Q s where
  part s t e h := ⟨K.part s t e h.1, L.part s t e h.2⟩
  idlePass s hn h := ⟨K.idlePass s hn h.1, L.idlePass s hn h.2⟩
  neutral s hn h := ⟨K.neutral s hn h.1, L.neutral s hn h.2⟩
  grantMoving e s hm hc h := ⟨K.grantMoving e s hm hc h.1, L.grantMoving e s hm hc h.2⟩
  grantFilling e s hm hc hs hp h := ⟨K.grantFilling e s hm hc hs hp h.1, L.grantFilling e s hm hc hs hp h.2⟩
  grantEnded e how s hm hc h := ⟨K.grantEnded e how s hm hc h.1, L.grantEnded e how s hm hc h.2⟩

end ArbiterKeep

/-! ## The queue, the fills and the vents -/

/-- The entry that a fill request makes. -/
def requestEntry (r : Requester) (c : CellSet) (g : Nat) : Entry :=
  { requester := r, cells := c, target := min g 400, resumed := false }

/-- The entry of a requester that waits is replaced in its place (spec/05 R94). -/
def replaceEntry (e : Entry) (l : List Entry) : List Entry := l.map fun x => if x.requester = e.requester then e else x

/-- The grant is over and its entry stands at the head of the queue: the release of R94's request of a holder. -/
def requeue (e : Entry) (park : Bool) (s : State) : State :=
  s.modPneu fun p => { p with compressor := false, holder := none, queue := { e with resumed := true } :: p.queue, parkNone := park }

/-- A law that every single update of the pneumatic controller keeps. `R` is what stands of it before a pass, `Q` right after one. -/
structure AirAtoms (owned : Prop) (P R Q : State → Prop) : Prop extends ArbiterKeep P where
  beforePass : ∀ s, P s → R s
  pass : ∀ s, R s → Q (passCore s)
  peak : ∀ g s, (g s.budget).result = s.budget.result ∧ (g s.budget).cEff = s.budget.cEff → Q s → Q (s.modBudget g)
  permit : ∀ s, s.budget.result.permitted = true ∨ s.pneu.holder = none → Q s → P s
  refuse : ∀ h s, s.pneu.holder = some h → Q s → P (requeue h.entry s.pneu.parkNone s)
  endFill : ∀ h how s, s.pneu.holder = some h → P s → P (endFill h how s)
  replace : ∀ r c g s, named owned r c → c ≠ 0 → P s →
    P (s.modPneu fun p => { p with queue := replaceEntry (requestEntry r c g) p.queue })
  rehold : ∀ r c g s, named owned r c → c ≠ 0 → s.isQueued r = false → P s → P (requeue (requestEntry r c g) s.parksNowhere s)
  append : ∀ r c g s, named owned r c → c ≠ 0 → s.isQueued r = false → s.heldBy r = none → P s →
    P (s.modPneu fun p => { p with queue := p.queue ++ [requestEntry r c g] })
  remove : ∀ r s, P s → P (s.modPneu fun p => { p with queue := removeEntry r p.queue })
  vent : ∀ r c s, named owned r c → reachesFill (.requester r) c s.pneu = none → P s → P (startVent (.requester r) c s)
  freedVent : ∀ r c h s, named owned r c → reachesFill (.requester r) c s.pneu = some h → P s →
    P (startVent (.requester r) c (finishFill h .withdrawn s))
  dropVent : ∀ o s, P s → P (s.modPneu fun p => { p with vents := Machine.dropVent o p.vents })
  sampleEnded : ∀ l r h how s, s.pneu.holder = some h → P s → P (Machine.endFill h how (storeSamples l r s))
  samples : ∀ l r s, (∀ h, s.pneu.holder = some h → h.p0.isSome = true → (storeSamples l r s).manifoldOf h.seat < 500) → P s →
    P (storeSamples l r s)
  arrived : ∀ d s, s.pneu.selector = .moving d 0 → P s → P (s.modPneu fun p => { p with selector := .atRest d })
  arrivedEnded : ∀ h how s, s.pneu.holder = some h → P s → P (Machine.endFill h how (takeP0 h s))
  arrivedFilling : ∀ h s, s.pneu.holder = some h → s.pneu.selector = .atRest (seatPos h.seat) → eligible s.pneu h.entry = true →
    startCheck h (s.manifoldOf h.seat) = none → P s → P (startCompressor (takeP0 h s))

/-- A holder that fills, and whose cells a vent covers, is the fill that the vent reaches. -/
theorem reachesFill_some {o : VentOwner} {c : CellSet} {p : Pneumatic} {h : Holder} (e : reachesFill o c p = some h) :
    p.holder = some h ∧ h.p0.isSome = true ∧ o.covers h.seat = true ∧ overlap c h.entry.cells = true := by
  unfold reachesFill at e
  split at e
  · rename_i k hk
    split at e
    · rename_i hc
      cases e
      simp only [Bool.and_eq_true] at hc
      exact ⟨hk, hc.1.1, hc.1.2, hc.2⟩
    · cases e
  · cases e

theorem reachesFill_none {o : VentOwner} {c : CellSet} {p : Pneumatic} {h : Holder} (e : reachesFill o c p = none)
    (hh : p.holder = some h) (hp : h.p0.isSome = true) (hc : o.covers h.seat = true) : overlap c h.entry.cells = false := by
  simp only [reachesFill, hh, hp, hc, Bool.and_self, Bool.true_and, ite_eq_right_iff, reduceCtorEq, imp_false] at e
  simpa using e

namespace AirAtoms

variable {owned : Prop} {P R Q : State → Prop} (K : AirAtoms owned P R Q) {s : State}
include K

theorem report (r : Report) (h : P s) : P (s.report r) := K.part s _ rfl h

theorem finishFill (h : Holder) (how : FillEnd) (hh : s.pneu.holder = some h) (k : P s) : P (finishFill h how s) :=
  K.release (endFill_holder _ _ _) (K.endFill h how s hh k)

theorem suspend (h : Holder) (hh : s.pneu.holder = some h) (k : Q s) : P (suspend h s) := by
  have back : P ((requeue h.entry s.pneu.parkNone s).report (.ended h.entry.requester .suspend)) :=
    K.report _ (K.refuse h s hh k)
  unfold Machine.suspend
  dsimp only
  split
  · exact K.idlePass _ rfl back
  · exact back

theorem takePermission (k : Q s) : P (takePermission s) := by
  unfold Machine.takePermission
  split
  · rename_i hp
    exact K.select (K.permit s (.inl hp) k)
  · split
    · rename_i h hh
      exact K.suspend h hh k
    · rename_i hn
      exact K.permit s (.inr hn) k

theorem runPass (h : R s) : P (runPass s) := K.takePermission (K.pass s h)

theorem requestFill (r : Requester) (c : CellSet) (g : Nat) (hc : named owned r c) (h : P s) : P (requestFill r c g s) := by
  unfold Machine.requestFill
  dsimp only
  split
  · exact K.report _ h
  · rename_i h0
    split
    · exact K.select (K.replace r c g s hc h0 h)
    · rename_i hq
      have hq' : s.isQueued r = false := by simpa using hq
      split
      · have headed := K.release (s := requeue (requestEntry r c g) s.parksNowhere s) rfl (K.rehold r c g s hc h0 hq' h)
        split
        · exact K.runPass (K.beforePass _ headed)
        · exact headed
      · rename_i hn
        have queued := K.append r c g s hc h0 hq' hn h
        split
        · exact K.runPass (K.beforePass _ queued)
        · exact K.select queued

theorem withdraw (r : Requester) (h : P s) : P (withdraw r s) := by
  unfold Machine.withdraw
  dsimp only
  split
  · have gone := K.remove r s h
    split
    · exact K.runPass (K.beforePass _ gone)
    · exact gone
  · split
    · rename_i g hg
      have hh : s.pneu.holder = some g := by
        unfold State.heldBy at hg
        split at hg
        · split at hg
          · cases hg; assumption
          · cases hg
        · cases hg
      exact K.finishFill g _ hh h
    · exact h

theorem requestVent (r : Requester) (c : CellSet) (hc : named owned r c) (h : P s) : P (requestVent r c s) := by
  have settled (u : State) (b : Bool) (hu : P (startVent (.requester r) c u)) :
      P (if c = 0 then (if b then Machine.select (startVent (.requester r) c u) else startVent (.requester r) c u).report (.ventComplete r)
        else if b then Machine.select (startVent (.requester r) c u) else startVent (.requester r) c u) := by
    have k : P (if b then Machine.select (startVent (.requester r) c u) else startVent (.requester r) c u) := by
      split
      · exact K.select hu
      · exact hu
    split
    · exact K.report _ k
    · exact k
  unfold Machine.requestVent
  cases hf : reachesFill (.requester r) c s.pneu with
  | some g =>
    simp only [hf]
    exact settled _ _ (K.freedVent r c g s hc hf h)
  | none =>
    simp only [hf]
    exact settled _ _ (K.vent r c s hc hf h)

theorem cancelVent (r : Requester) (h : P s) : P (cancelVent r s) := by
  unfold Machine.cancelVent
  split
  · exact K.select (K.dropVent _ s h)
  · exact h

theorem sample (l r : Int) (h : P s) : P (judgeFill (storeSamples l r s)) := by
  unfold judgeFill
  split
  · rename_i g hg
    split
    · split
      · exact K.release (endFill_holder _ _ _) (K.sampleEnded l r g _ s hg h)
      · rename_i hj
        refine K.samples l r s (fun k hk _ => ?_) h
        cases hg.symm.trans hk
        unfold judgeSample at hj
        split at hj
        · cases hj
        · rename_i hm
          exact Nat.lt_of_not_le hm
    · rename_i hp
      refine K.samples l r s (fun k hk hk' => ?_) h
      cases hg.symm.trans hk
      exact absurd hk' hp
  · rename_i hn
    exact K.samples l r s (fun k hk _ => absurd (hn.symm.trans hk) (by simp)) h

theorem arrive (h : P s) : P (arriveSelector s) := by
  unfold arriveSelector
  split
  · exact h
  · exact h
  · rename_i d hd
    have t := K.arrived d s hd h
    dsimp only
    split
    · rename_i g hg
      split
      · rename_i hc
        unfold beginFilling
        split
        · exact K.release (endFill_holder _ _ _) (K.arrivedEnded g _ _ hg t)
        · rename_i hs
          exact K.arrivedFilling g _ hg (by rw [hc.2.1]; rfl) hc.2.2 hs t
      · exact t
    · exact t

theorem endVent (o : VentOwner) (h : P s) : P (endVent o s) := by
  unfold Machine.endVent
  split
  · have t := K.select (K.dropVent o s h)
    cases o with
    | requester r => exact K.report _ t
    | relief => exact t
    | reset => exact t
  · exact h

/-- What the single updates keep, the pneumatic controller keeps. -/
theorem air : AirKeep owned P R where
  part := K.part
  runPass _ := K.runPass
  scanPass s h := K.takePermission (K.peak _ _ ⟨rfl, rfl⟩ (K.pass s h))
  requestFill r c g _ hc := K.requestFill r c g hc
  withdraw r _ := K.withdraw r
  requestVent r c _ hc := K.requestVent r c hc
  cancelVent r _ := K.cancelVent r
  finishFill h how _ hh := K.finishFill h how hh
  sample l r _ := K.sample l r
  arrive _ := K.arrive
  endVent o _ := K.endVent o

end AirAtoms

end Sys2Proof.Machine
end
section
/-! PROOFS. The laws of the attention lines and the pending sets (O52, O53), and a law that the pneumatic controller does not reach. -/
namespace Sys2Proof.Machine

/-! ## A law that the pneumatic controller reaches by its passes alone -/

/-- The second state is the first but for the pneumatic controller, its reports and its next sample. -/
def airOnly (s t : State) : Prop := t = { s with pneu := t.pneu, reports := t.reports, manifoldTimer := t.manifoldTimer }

theorem airOnly_orderSelector (d : SelPos) (s : State) : airOnly s (orderSelector d s) := by
  unfold orderSelector
  split <;> rfl

theorem airOnly_endFill (h : Holder) (how : FillEnd) (s : State) : airOnly s (endFill h how s) := by
  unfold endFill
  dsimp only
  split <;> rfl

theorem airOnly.trans {s t u : State} (a : airOnly s t) (b : airOnly t u) : airOnly s u := by
  unfold airOnly at a
  rw [a] at b
  exact b

/-- A law that a pass keeps and the pneumatic controller's own updates do not reach. -/
theorem AirAtoms.of_pass {owned : Prop} {P R : State → Prop} (part : ∀ s t : State, s.toPart = t.toPart → P s → P t)
    (air : ∀ s t, airOnly s t → P s → P t) (before : ∀ s, P s → R s) (pass : ∀ s, R s → P (passCore s))
    (peak : ∀ g s, (g s.budget).result = s.budget.result ∧ (g s.budget).cEff = s.budget.cEff → P s → P (s.modBudget g)) :
    AirAtoms owned P R P := by
  have base : ArbiterKeep P :=
    { part := part
      idlePass := fun s _ h => pass s (before s h)
      neutral := fun s _ => air _ _ (airOnly_orderSelector _ s)
      grantMoving := fun e s _ _ => air _ _ (.trans (show airOnly s (grantEntry _ s) from rfl) (airOnly_orderSelector _ _))
      grantFilling := fun e s _ _ _ _ => air _ _ rfl
      grantEnded := fun e how s _ _ =>
        air _ _ (.trans (show airOnly s (takeP0 _ (grantEntry _ s)) from rfl) (airOnly_endFill _ _ _)) }
  exact
    { base with
      beforePass := before
      pass := pass
      peak := peak
      permit := fun _ _ h => h
      refuse := fun _ _ _ => air _ _ rfl
      endFill := fun h how s _ => air _ _ (airOnly_endFill h how s)
      replace := fun _ _ _ _ _ _ => air _ _ rfl
      rehold := fun _ _ _ _ _ _ _ => air _ _ rfl
      append := fun _ _ _ _ _ _ _ _ => air _ _ rfl
      remove := fun _ _ => air _ _ rfl
      vent := fun _ _ _ _ _ => air _ _ rfl
      freedVent := fun r c h s _ _ k =>
        air _ _ rfl (base.release (endFill_holder _ _ _) (air _ _ (airOnly_endFill h .withdrawn s) k))
      dropVent := fun _ _ => air _ _ rfl
      sampleEnded := fun l r h how s _ => air _ _ (.trans (show airOnly s (storeSamples l r s) from rfl) (airOnly_endFill _ _ _))
      samples := fun _ _ _ _ => air _ _ rfl
      arrived := fun _ _ _ => air _ _ rfl
      arrivedEnded := fun h how s _ => air _ _ (.trans (show airOnly s (takeP0 h s) from rfl) (airOnly_endFill _ _ _))
      arrivedFilling := fun _ _ _ _ _ _ => air _ _ rfl }

/-! ## Laws of the pending sets -/

/-- A pair that a raise may deliver to master `m` (spec/10 R185). -/
def placed (m : Master) (n : Notice) : Prop := n.seat.isSome = n.kind.isSeatKind ∧ (m ≠ .gateway → n.kind.isSeatKind = true)

/-- A law of each master's box that what happens to a box keeps. -/
structure BoxKeep (L : Master → NoticeBox → Prop) : Prop where
  receive : ∀ m n b, placed m n → L m b → L m (b.receive n)
  drop : ∀ m b, L m b → L m b.dropSeatKinds
  mask : ∀ m k b, L m b → L m (NoticeBox.judged { b with mask := k })
  without : ∀ m n b, L m b → L m (b.without n)
  powerOn : ∀ m, L m (.powerOn m)

/-- The law holds of the three boxes. -/
def State.boxes (L : Master → NoticeBox → Prop) (s : State) : Prop := ∀ m, L m (s.notices.get m)

theorem PerMaster.forall_set {α : Type} {L : Master → α → Prop} (p : PerMaster α) (m : Master) (v : α) (hv : L m v)
    (h : ∀ k, L k (p.get k)) (k : Master) : L k ((p.set m v).get k) := by
  by_cases e : k = m
  · subst e
    rw [PerMaster.get_set_same]
    exact hv
  · rw [PerMaster.get_set_other _ _ _ _ e]
    exact h k

namespace BoxKeep

variable {L : Master → NoticeBox → Prop} (B : BoxKeep L) {s : State}
include B

theorem deliver (n : Notice) (b : Bool) (m : Master) (hn : placed m n) (h : s.boxes L) : (s.deliver n b m).boxes L := by
  unfold State.deliver
  split
  · exact PerMaster.forall_set _ m _ (B.receive m n _ hn (h m)) h
  · exact h

theorem raiseDevice (k : NoticeKind) (d : Detail) (hk : k.isSeatKind = false) (h : s.boxes L) : (raiseDevice k d s).boxes L :=
  B.deliver _ _ _ ⟨hk.symm, fun e => absurd rfl e⟩ h

theorem raiseSeat (k : NoticeKind) (x : Seat) (d : Detail) (e : Option Master) (hk : k.isSeatKind = true) (h : s.boxes L) :
    (raiseSeat k x d e s).boxes L := by
  have p (m : Master) : placed m ⟨k, some x, d⟩ := ⟨hk.symm, fun _ => hk⟩
  exact B.deliver _ _ _ (p _) (B.deliver _ _ _ (p _) (B.deliver _ _ _ (p _) h))

theorem passCore (h : s.boxes L) : (passCore s).boxes L := by
  show (storeResult (allocate s.passInput) s).boxes L
  unfold storeResult noteLimited
  split
  · exact B.raiseDevice .budgetLimited _ rfl h
  · exact h

theorem readRecord (i : StepIndex) (h : s.boxes L) : (readRecord i s).boxes L := by
  unfold Machine.readRecord
  split
  · unfold correctRecord
    dsimp only
    split
    · exact h
    · exact B.raiseDevice .storeError _ rfl h
  · exact B.raiseDevice .storeError _ rfl h
  · exact h
  · exact h

theorem dropSeatNotices (h : s.boxes L) : (dropSeatNotices s).boxes L := fun m => by
  cases m with
  | gateway => exact B.drop .gateway _ (h .gateway)
  | leftPanel => exact B.drop .leftPanel _ (h .leftPanel)
  | rightPanel => exact B.drop .rightPanel _ (h .rightPanel)

theorem reset : State.reset.boxes L := fun m => by cases m <;> exact B.powerOn _

/-- What happens to a box keeps the law, and so every step does. -/
theorem keep : StepKeep False (State.boxes L) (State.boxes L) := by
  have loads : LoadsKeep (State.boxes L) := { raiseSeat := fun k x d e s hk h => B.raiseSeat k x d e hk h }
  exact
  { loads with
    toAirKeep := (AirAtoms.of_pass (P := State.boxes L) (fun s t e h m => by
        show L m (t.toPart.notices.get m)
        rw [← e]
        exact h m)
      (fun s t e h m => by rw [e]; exact h m) (fun _ h => h) (fun _ => B.passCore) (fun _ _ _ h => h)).air
    raiseDevice := fun k d s hk h => B.raiseDevice k d hk h
    idleLoads := loads.idleLoads fun _ _ _ h => h
    emptySeat := loads.emptySeat (fun _ _ _ h => h) (fun _ _ _ _ h => h) fun _ _ h => h
    readRecord := fun i s => B.readRecord i
    resetAir := fun s h => by
      obtain ⟨p, l, e⟩ := resetAir_touches s
      rw [e]
      exact B.dropSeatNotices (s := clearSeats s) h
    storeMask := fun m k s h => PerMaster.forall_set _ m _ (B.mask m k _ (h m)) h
    removeNotice := fun m n s h => PerMaster.forall_set _ m _ (B.without m n _ (h m)) h
    powerOn := fun _ _ _ _ _ => B.reset
    loseSupply := fun _ => B.reset }

end BoxKeep

/-! ## The two laws -/

/-- A box with its line exact, each pair once in the order of choice, and each pair where its kind belongs. -/
def boxInOrder (m : Master) (b : NoticeBox) : Prop := b.sound ∧ ∀ n ∈ b.pending, placed m n

theorem boxInOrder_keep : BoxKeep boxInOrder where
  receive m n b hn h := ⟨receive_sound n b h.1, fun p hp => by
    rcases mem_of_insertNotice n p b.pending hp with e | hb
    · subst e; exact hn
    · exact h.2 p hb⟩
  drop m b h := ⟨dropSeatKinds_sound b h.1, fun p hp => h.2 p (List.mem_filter.1 hp).1⟩
  mask m k b h := ⟨⟨judged_exact _, h.1.2⟩, h.2⟩
  without m n b h := ⟨⟨judged_exact _, ranksRise_filter _ b.pending h.1.2⟩, fun p hp => h.2 p (List.mem_filter.1 hp).1⟩
  powerOn m := by
    cases m with
    | gateway => exact ⟨⟨rfl, by simp [NoticeBox.powerOn, ranksRise]⟩, by simp [NoticeBox.powerOn, placed, NoticeKind.isSeatKind]⟩
    | leftPanel => exact ⟨⟨rfl, trivial⟩, by simp [NoticeBox.powerOn]⟩
    | rightPanel => exact ⟨⟨rfl, trivial⟩, by simp [NoticeBox.powerOn]⟩

theorem boxes_inOrder (s : State) : s.boxes boxInOrder ↔ s.noticesSound ∧ s.noticesPlaced :=
  forall_and

/-- A law and one that says the same are kept together. -/
theorem inEither_congr {P Q : State → Prop} (h : ∀ s, P s ↔ Q s) (s : State) : s.inEither P ↔ s.inEither Q := by
  simp only [State.inEither, h]

/-- Settles O52: the two laws are one law of each master's box. -/
theorem stepKeepsNotices : Obligations.StepKeepsNotices := by
  intro s t hs ht
  rw [← inEither_congr boxes_inOrder] at hs ⊢
  exact boxInOrder_keep.keep.step_inEither hs ht

/-- A line is low exactly while the set holds a pair that is not masked. -/
def lineExact (_ : Master) (b : NoticeBox) : Prop := b.line = true ↔ ∃ n ∈ b.pending, b.mask.getLsbD n.kind.bit = false

theorem judged_lineExact (m : Master) (b : NoticeBox) : lineExact m b.judged := by
  simp [lineExact, NoticeBox.judged, masked]

theorem lineExact_keep : BoxKeep lineExact where
  receive m _ _ _ _ := judged_lineExact m _
  drop m _ _ := judged_lineExact m _
  mask m _ _ _ := judged_lineExact m _
  without m _ _ _ := judged_lineExact m _
  powerOn m := by cases m <;> simp [lineExact, NoticeBox.powerOn]

/-- Settles O53: whatever changes a set or a mask judges its line anew. -/
theorem linesStayExact : Obligations.LinesStayExact := fun _ _ => lineExact_keep.keep.step_inEither

end Sys2Proof.Machine
end
section
/-! PROOFS. The law of an allocation pass (spec/04 R71 to R75): its caps, its sums and its grants (O23). -/
namespace Sys2Proof.Machine

/-! ## The caps -/

namespace PassInput

variable (p : PassInput)

theorem fanSum_zero : p.fanSum 0 = 0 := by
  simp [fanSum, fansAt, PerSeat.mapPairs, PerSeat.sumPairs, Pair.map, fanI]

theorem heatAt_zero : p.heatAt 0 = 0 := by simp [heatAt, weigh, PerSeat.mapFives, Five.map]

theorem fanCapFor_le (a : Nat) : p.fanCapFor a ≤ 3 := by
  unfold fanCapFor
  repeat' split
  all_goals decide

theorem fanSum_fanCapFor (a : Nat) : p.fanSum (p.fanCapFor a) ≤ a := by
  unfold fanCapFor
  split
  · assumption
  · split
    · assumption
    · split
      · assumption
      · rw [fanSum_zero]; exact Nat.zero_le a

/-- The fan cap is the largest that fits. -/
theorem lt_fanSum_of_fanCapFor_lt (a k : Nat) (hk : p.fanCapFor a < k) (h3 : k ≤ 3) : a < p.fanSum k := by
  unfold fanCapFor at hk
  split at hk
  · omega
  · rename_i n3
    split at hk
    · obtain rfl : k = 3 := by omega
      omega
    · rename_i n2
      split at hk
      · obtain rfl | rfl : k = 2 ∨ k = 3 := by omega
        all_goals omega
      · obtain rfl | rfl | rfl : k = 1 ∨ k = 2 ∨ k = 3 := by omega
        all_goals omega

theorem largestDuty_le (b x : Nat) : p.largestDuty b x ≤ x := by
  induction x with
  | zero => exact Nat.le_refl 0
  | succ x ih =>
    unfold largestDuty
    split <;> omega

theorem heatAt_largestDuty (b x : Nat) : p.heatAt (p.largestDuty b x) ≤ b := by
  induction x with
  | zero =>
    rw [largestDuty, heatAt_zero]
    exact Nat.zero_le b
  | succ x ih =>
    unfold largestDuty
    split
    · assumption
    · exact ih

theorem lt_heatAt_of_largestDuty_lt (b x d : Nat) (hd : p.largestDuty b x < d) (hx : d ≤ x) : b < p.heatAt d := by
  induction x with
  | zero => omega
  | succ x ih =>
    unfold largestDuty at hd
    split at hd
    · omega
    · by_cases e : d = x + 1
      · subst e; omega
      · exact ih hd (by omega)

theorem dutyCapFor_le (a : Nat) : p.dutyCapFor a ≤ 100 := by
  unfold dutyCapFor
  split
  · exact Nat.le_refl 100
  · exact Nat.le_trans (p.largestDuty_le _ 99) (by decide)

theorem heatAt_dutyCapFor (a : Nat) : p.heatAt (p.dutyCapFor a) ≤ 100 * a := by
  unfold dutyCapFor
  split
  · assumption
  · exact p.heatAt_largestDuty _ 99

/-- The duty cap is the largest that fits. -/
theorem lt_heatAt_of_dutyCapFor_lt (a d : Nat) (hd : p.dutyCapFor a < d) (h : d ≤ 100) : 100 * a < p.heatAt d := by
  unfold dutyCapFor at hd
  split at hd
  · omega
  · by_cases e : d = 100
    · subst e; omega
    · exact p.lt_heatAt_of_largestDuty_lt _ 99 d hd (by omega)

theorem pumpFits_iff (a : Nat) : p.pumpFits a = true ↔ p.demand = true ∧ p.pump + p.fanFloor ≤ a := by simp [pumpFits]

/-- The pump's part of what the ceiling leaves. -/
def pumpPart (a : Nat) : Nat := if p.pumpFits a then p.pump else 0

theorem pumpPart_le (a : Nat) : p.pumpPart a ≤ a := by
  unfold pumpPart
  split
  · rename_i h
    have := ((p.pumpFits_iff a).1 h).2
    omega
  · exact Nat.zero_le a

end PassInput

/-! ## The allocation -/

/-- The allocation at or below the overhead. -/
theorem allocate_starved (p : PassInput) (h : p.cEff ≤ p.overhead) : allocate p =
    { status := .starved, demandSeen := p.demand, permitted := false, fanCap := 0, fanGrants := .both ⟨0, 0⟩,
      dutyCap := 0, grants := .both (Five.all 0), heater := 0, total := p.overhead } := if_pos h

/-- What the pump leaves, and what the fans leave of that. -/
def PassInput.afterPump (p : PassInput) : Nat := p.cEff - p.overhead - p.pumpPart (p.cEff - p.overhead)

def PassInput.afterFans (p : PassInput) : Nat := p.afterPump - p.fanSum (p.fanCapFor p.afterPump)

/-- The allocation above the overhead. -/
theorem allocate_above (p : PassInput) (h : p.overhead < p.cEff) : allocate p =
    { status := if p.dutyCapFor p.afterFans < 100 || (p.demand && !p.pumpFits (p.cEff - p.overhead)) then .limited else .full
      demandSeen := p.demand, permitted := p.pumpFits (p.cEff - p.overhead), fanCap := p.fanCapFor p.afterPump
      fanGrants := p.fansAt (p.fanCapFor p.afterPump), dutyCap := p.dutyCapFor p.afterFans
      grants := PerSeat.mapFives (min · (p.dutyCapFor p.afterFans)) p.requests
      heater := (p.heatAt (p.dutyCapFor p.afterFans) + 99) / 100
      total := p.overhead + p.pumpPart (p.cEff - p.overhead) + p.fanSum (p.fanCapFor p.afterPump) +
        (p.heatAt (p.dutyCapFor p.afterFans) + 99) / 100 } := if_neg (Nat.not_le_of_lt h)

/-- What the pump, the fans and the heaters take together fits. -/
theorem allocate_sums (p : PassInput) : p.pumpPart (p.cEff - p.overhead) + p.fanSum (p.fanCapFor p.afterPump) + p.afterFans =
    p.cEff - p.overhead := by
  have h1 := p.pumpPart_le (p.cEff - p.overhead)
  have h2 := p.fanSum_fanCapFor p.afterPump
  unfold PassInput.afterFans
  unfold PassInput.afterPump at *
  omega

/-- The total of a pass that is not STARVED fits the ceiling (spec/04 R75). -/
theorem allocate_total_le (p : PassInput) (h : (allocate p).status ≠ .starved) : (allocate p).total ≤ p.cEff := by
  by_cases hc : p.cEff ≤ p.overhead
  · rw [allocate_starved p hc] at h
    exact absurd rfl h
  · have sums := allocate_sums p
    have heat := p.heatAt_dutyCapFor p.afterFans
    rw [allocate_above p (by omega)]
    show p.overhead + _ + _ + _ ≤ _
    omega

/-- No zone is granted more than it asks for (spec/04 R74). -/
theorem allocate_grant_le (p : PassInput) (z : ZoneId) :
    ((allocate p).grants.get z.seat).get z.part ≤ (p.requests.get z.seat).get z.part := by
  by_cases hc : p.cEff ≤ p.overhead
  · rw [allocate_starved p hc]
    simp
  · rw [allocate_above p (by omega)]
    obtain ⟨x, q⟩ := z
    cases x <;> simp only [PerSeat.mapFives, PerSeat.get, Five.get_map] <;> exact Nat.min_le_left _ _

/-- No fan is granted more than it demands (spec/04 R73). -/
theorem allocate_fanGrant_le (p : PassInput) (f : FanId) :
    ((allocate p).fanGrants.get f.seat).get f.part ≤ (p.fans.get f.seat).get f.part := by
  by_cases hc : p.cEff ≤ p.overhead
  · rw [allocate_starved p hc]
    obtain ⟨x, q⟩ := f
    cases q <;> simp [Pair.get]
  · rw [allocate_above p (by omega)]
    obtain ⟨x, q⟩ := f
    cases x <;> simp only [PassInput.fansAt, PerSeat.mapPairs, PerSeat.get, Pair.get_map] <;> exact Nat.min_le_left _ _

/-- Settles O23: each clause by the lemma of its cap. -/
theorem passFitsCeiling : Obligations.PassFitsCeiling := by
  intro p
  by_cases hc : p.cEff ≤ p.overhead
  · have zero : p.cEff - p.overhead = 0 := by omega
    rw [allocate_starved p hc]
    refine ⟨?_, fun _ => ⟨rfl, rfl, rfl, rfl, rfl⟩, fun h => absurd h (by omega)⟩
    simp [PerSeat.both, PerSeat.mapPairs, PerSeat.sumPairs, Pair.map, PassInput.fanI, weigh, Five.all]
  · have sums := allocate_sums p
    have heat := p.heatAt_dutyCapFor p.afterFans
    have fans : PerSeat.sumPairs (PerSeat.mapPairs p.fanI (p.fansAt (p.fanCapFor p.afterPump))) =
      p.fanSum (p.fanCapFor p.afterPump) := rfl
    have heats : weigh p.rated (PerSeat.mapFives (min · (p.dutyCapFor p.afterFans)) p.requests) =
      p.heatAt (p.dutyCapFor p.afterFans) := rfl
    have pump : (if p.pumpFits (p.cEff - p.overhead) = true then p.pump else 0) = p.pumpPart (p.cEff - p.overhead) := rfl
    have total := allocate_total_le p
    rw [allocate_above p (by omega)] at total ⊢
    dsimp only at total ⊢
    rw [pump, fans, heats]
    have status : (if (decide (p.dutyCapFor p.afterFans < 100) || p.demand && !p.pumpFits (p.cEff - p.overhead)) = true
      then PassStatus.limited else .full) ≠ .starved := by split <;> simp
    refine ⟨by omega, fun h => absurd h hc, fun _ => ⟨total status, status, rfl, rfl, p.pumpFits_iff _, p.fanCapFor_le _,
      fun k hk h3 => p.lt_fanSum_of_fanCapFor_lt _ k hk h3, p.dutyCapFor_le _,
      fun d hd h => p.lt_heatAt_of_dutyCapFor_lt _ d hd h, rfl, rfl, ?_⟩⟩
    simp [Decidable.or_iff_not_imp_left]

end Sys2Proof.Machine
end
section
/-! PROOFS. What every step keeps of the ceiling, the idle seats' loads and the grants (O54, O55, O56). -/
namespace Sys2Proof.Machine

/-! ## C_eff -/

/-- What C_eff is made of stands as it was. -/
theorem effectiveCeiling_congr {s t : State} (hc : t.budget.ceiling = s.budget.ceiling) (hd : t.budget.derate = s.budget.derate)
    (hb : t.supply.band = s.supply.band) (hp : t.param 44 = s.param 44) : t.effectiveCeiling = s.effectiveCeiling := by
  simp only [State.effectiveCeiling, State.bandCap, State.shedCeiling, hc, hd, hb, hp]

theorem ceilingExact_congr {s t : State} (hc : t.budget.ceiling = s.budget.ceiling) (hd : t.budget.derate = s.budget.derate)
    (he : t.budget.cEff = s.budget.cEff) (hb : t.supply.band = s.supply.band) (hp : t.param 44 = s.param 44)
    (h : s.ceilingExact) : t.ceilingExact := by
  unfold State.ceilingExact
  rw [effectiveCeiling_congr hc hd hb hp, he]
  exact h

theorem ceilingExact_of_bystander {s t : State} (k : t.bystander = s.bystander) (h : s.ceilingExact) : t.ceilingExact :=
  ceilingExact_congr (congrArg Budget.ceiling (budget_of_bystander k) :) (congrArg Budget.derate (budget_of_bystander k) :)
    (cEff_of_bystander k) (congrArg SupplyMonitor.band (supply_of_bystander k)) (param_of_bystander k 44) h

theorem recomputeCeiling_exact (s : State) : (recomputeCeiling s).ceilingExact := rfl

theorem putParam_ceilingExact (n v : Nat) (s : State) (hn : n ≠ 44) (hs : s.stored) (h : s.ceilingExact) :
    (s.putParam n v).ceilingExact :=
  ceilingExact_congr (by rfl) (by rfl) (by rfl) (by rfl) (param_putParam_other s n 44 v hs.2.2 (Ne.symm hn)) h

/-- The store in order and C_eff exact. -/
abbrev ceilingLaws (s : State) : Prop := s.stored ∧ s.ceilingExact

theorem ceilingLaws_of_part (s t : State) (e : s.toPart = t.toPart) (h : ceilingLaws s) : ceilingLaws t := by
  cases s
  cases t
  cases e
  exact h

theorem ceilingLaws_keep : StepKeep False ceilingLaws ceilingLaws where
  toAirKeep := .of_stirs ceilingLaws_of_part
    (fun s t k h => ⟨k.stored h.1, ceilingExact_of_bystander k.bystander h.2⟩) (fun _ _ _ h => h) (fun _ _ h => h)
  idleLoads := LoadsKeep.idleLoads (P := ceilingLaws) {} fun _ _ _ h => h
  emptySeat := LoadsKeep.emptySeat (P := ceilingLaws) {} (fun _ _ _ h => h) (fun _ _ _ _ h => h) fun _ _ h => h
  recompute s b sp n _ h := ⟨h.1, recomputeCeiling_exact _⟩
  modBudget g s e h := ⟨h.1, ceilingExact_congr e.2.1 e.2.2.1 e.2.2.2 rfl rfl h.2⟩
  supply sp n s e h := ⟨h.1, ceilingExact_congr (s := s) rfl rfl rfl e rfl h.2⟩
  readRecord i s h := ⟨stored_keep.readRecord i s h.1, ceilingExact_of_bystander (bystander_readRecord s i) h.2⟩
  disturb i s h := ⟨disturb_stored i s h.1, by unfold disturb; split <;> exact h.2⟩
  putEntry n e s hlo hhi h := ⟨stored_keep.putEntry n e s hlo hhi h.1, h.2⟩
  putParam n v s hn h44 _ h := ⟨putParam_stored n v s hn h.1, putParam_ceilingExact n _ s h44 h.1 h.2⟩
  putShed v s h := ⟨putParam_stored 44 v s (by decide) h.1, recomputeCeiling_exact _⟩
  putRotation v s h := ⟨putParam_stored 52 v s (by decide) h.1, putParam_ceilingExact 52 _ s (by decide) h.1 h.2⟩
  putRam i r s hi hm h := ⟨stored_keep.putRam i r s hi hm h.1, h.2⟩
  powerOn _ _ _ _ _ := ⟨reset_stored, rfl⟩
  loseSupply _ := ⟨reset_stored, rfl⟩

/-- Settles O54: whatever changes the ceiling, the band cap or the derate steps recomputes C_eff. -/
theorem stepKeepsCeilingExact : Obligations.StepKeepsCeilingExact := fun _ _ => ceilingLaws_keep.step_inEither

end Sys2Proof.Machine
end
section
/-! PROOFS. What a pass hands to a zone and a fan, and what every step keeps of idle seats and of grants (O55, O56). -/
namespace Sys2Proof.Machine

/-! ## The hand-off -/

/-- What an allocation grants a zone, and a fan. -/
def Allocation.grantOf (a : Allocation) (z : ZoneId) : Nat := (a.grants.get z.seat).get z.part

def Allocation.levelOf (a : Allocation) (f : FanId) : Nat := (a.fanGrants.get f.seat).get f.part

theorem zone_handOff (a : Allocation) (s : State) (z : ZoneId) : (handOff a s).zone z = takeGrant (a.grantOf z) (s.zone z) := by
  obtain ⟨x, p⟩ := z
  cases x <;> cases p <;> rfl

theorem fan_handOff (a : Allocation) (s : State) (f : FanId) : (handOff a s).fan f = setGranted (a.levelOf f) (s.fan f) := by
  obtain ⟨x, p⟩ := f
  cases x <;> cases p <;> rfl

theorem zone_passCore (s : State) (z : ZoneId) : (passCore s).zone z = takeGrant ((allocate s.passInput).grantOf z) (s.zone z) := by
  unfold passCore
  dsimp only
  rw [zone_handOff, storeResult_touches]
  rfl

theorem fan_passCore (s : State) (f : FanId) : (passCore s).fan f = setGranted ((allocate s.passInput).levelOf f) (s.fan f) := by
  unfold passCore
  dsimp only
  rw [fan_handOff, storeResult_touches]
  rfl

theorem grantOf_le (s : State) (z : ZoneId) : (allocate s.passInput).grantOf z ≤ (s.zone z).request := by
  refine Nat.le_trans (allocate_grant_le s.passInput z) (Nat.le_of_eq ?_)
  obtain ⟨x, p⟩ := z
  cases x <;> cases p <;> rfl

theorem levelOf_le (s : State) (f : FanId) : (allocate s.passInput).levelOf f ≤ (s.fan f).demand := by
  refine Nat.le_trans (allocate_fanGrant_le s.passInput f) (Nat.le_of_eq ?_)
  obtain ⟨x, p⟩ := f
  cases x <;> cases p <;> rfl

theorem takeGrant_request (g : Nat) (c : ZoneChannel) : (takeGrant g c).request = c.request := by
  unfold takeGrant
  split <;> rfl

/-- A grant puts no gate on. -/
theorem takeGrant_gate (g : Nat) (c : ZoneChannel) (h : c.gate = false) : (takeGrant g c).gate = false := by
  unfold takeGrant
  split
  · simp [cutWindow, h]
  · exact h

/-! ## A law of each zone channel and each fan channel -/

/-- A law of the zones and the fans, by the activity of their seats. -/
def State.loads (Z : Bool → ZoneChannel → Prop) (F : Bool → FanChannel → Prop) (s : State) : Prop :=
  (∀ z : ZoneId, Z (s.active z.seat) (s.zone z)) ∧ ∀ f : FanId, F (s.active f.seat) (s.fan f)

/-- What happens to a channel keeps its law. -/
structure ChannelKeep (Z : Bool → ZoneChannel → Prop) (F : Bool → FanChannel → Prop) : Prop where
  zone : ∀ z c s, ZoneFits s z c → Z (s.active z.seat) (s.zone z) → Z (s.active z.seat) c
  fan : ∀ f c s, FanFits s f c → F (s.active f.seat) (s.fan f) → F (s.active f.seat) c
  grant : ∀ b g c, g ≤ c.request → Z b c → Z b (takeGrant g c)
  level : ∀ b g c, g ≤ c.demand → F b c → F b (setGranted g c)
  offZone : ∀ b c, c.gate = false → c.request = 0 → c.grant = 0 → Z b c
  offFan : ∀ b c, c.granted = 0 → c.demand = 0 → F b c
  wakeZone : ∀ c, Z false c → Z true c
  wakeFan : ∀ c, F false c → F true c
  sameZone : ∀ b c d, d.gate = c.gate → d.request = c.request → d.grant = c.grant → Z b c → Z b d
  sameFan : ∀ b c d, d.granted = c.granted → d.demand = c.demand → F b c → F b d

namespace ChannelKeep

variable {Z : Bool → ZoneChannel → Prop} {F : Bool → FanChannel → Prop} (C : ChannelKeep Z F) {s t : State}
include C

/-- The loads of the two seats as they were, or changed but for request, grant, gate, level and demand. -/
theorem same (ha : ∀ x, t.active x = s.active x)
    (hz : ∀ z, (t.zone z).gate = (s.zone z).gate ∧ (t.zone z).request = (s.zone z).request ∧ (t.zone z).grant = (s.zone z).grant)
    (hf : ∀ f, (t.fan f).granted = (s.fan f).granted ∧ (t.fan f).demand = (s.fan f).demand) (h : s.loads Z F) : t.loads Z F :=
  ⟨fun z => ha z.seat ▸ C.sameZone _ _ _ (hz z).1 (hz z).2.1 (hz z).2.2 (h.1 z),
   fun f => ha f.seat ▸ C.sameFan _ _ _ (hf f).1 (hf f).2 (h.2 f)⟩

theorem loads : LoadsKeep (State.loads Z F) where
  setZone z c s hc h := ⟨fun w => by
    by_cases e : w = z
    · subst e
      rw [State.zone_setZone]
      exact C.zone w c s hc (h.1 w)
    · rw [State.zone_setZone_other _ _ _ _ e]
      exact h.1 w, h.2⟩
  setFan f c s hc h := ⟨h.1, fun g => by
    by_cases e : g = f
    · subst e
      rw [State.fan_setFan]
      exact C.fan g c s hc (h.2 g)
    · rw [State.fan_setFan_other _ _ _ _ e]
      exact h.2 g⟩

theorem handOff (a : Allocation) (hz : ∀ z, a.grantOf z ≤ (s.zone z).request) (hf : ∀ f, a.levelOf f ≤ (s.fan f).demand)
    (h : s.loads Z F) : (handOff a s).loads Z F :=
  ⟨fun z => by rw [zone_handOff]; exact C.grant _ _ _ (hz z) (h.1 z),
   fun f => by rw [fan_handOff]; exact C.level _ _ _ (hf f) (h.2 f)⟩

theorem passCore (h : s.loads Z F) : (passCore s).loads Z F := by
  unfold Machine.passCore
  dsimp only
  have k : storeResult (allocate s.passInput) s = { s with
      budget := (storeResult (allocate s.passInput) s).budget, notices := (storeResult (allocate s.passInput) s).notices } :=
    storeResult_touches _ s
  rw [k]
  exact C.handOff _ (grantOf_le s) (levelOf_le s) h

/-- A seat that wakes, or whose activity stays, keeps the law. -/
theorem modSeat (x : Seat) (g : SeatRecord → SeatRecord)
    (hg : s.active x = false ∨ (g (s.seat x)).occupancy.active = true ∨ (g (s.seat x)).occupancy = (s.seat x).occupancy)
    (h : s.loads Z F) : (s.modSeat x g).loads Z F := by
  have act (y : Seat) : (s.modSeat x g).active y = s.active y ∨ (s.active y = false ∧ (s.modSeat x g).active y = true) := by
    by_cases e : y = x
    · subst e
      have k : (s.modSeat y g).active y = (g (s.seat y)).occupancy.active := by simp [State.active]
      rw [k]
      rcases hg with hg | hg | hg
      · cases e : (g (s.seat y)).occupancy.active with
        | false => exact .inl hg.symm
        | true => exact .inr ⟨hg, rfl⟩
      · cases e : s.active y with
        | false => exact .inr ⟨rfl, hg⟩
        | true => exact .inl hg
      · exact .inl (by rw [hg]; rfl)
    · exact .inl (by simp [State.active, e])
  refine ⟨fun z => ?_, fun f => ?_⟩
  · have k : Z (s.active z.seat) (s.zone z) := h.1 z
    show Z _ (s.zone z)
    rcases act z.seat with e | ⟨e, e'⟩
    · rw [e]; exact k
    · rw [e] at k; rw [e']; exact C.wakeZone _ k
  · have k : F (s.active f.seat) (s.fan f) := h.2 f
    show F _ (s.fan f)
    rcases act f.seat with e | ⟨e, e'⟩
    · rw [e]; exact k
    · rw [e] at k; rw [e']; exact C.wakeFan _ k

omit C in
/-- The law, but for the listed zones and fans. -/
def but (Z : Bool → ZoneChannel → Prop) (F : Bool → FanChannel → Prop) (lz : List ZoneId) (lf : List FanId) (s : State) : Prop :=
  (∀ z : ZoneId, z ∉ lz → Z (s.active z.seat) (s.zone z)) ∧ ∀ f : FanId, f ∉ lf → F (s.active f.seat) (s.fan f)

/-- A zone of an idle seat is off once it is evaluated. -/
theorem but_evaluateZone (z : ZoneId) (lz : List ZoneId) (lf : List FanId) (hi : s.active z.seat = false) (h : but Z F (z :: lz) lf s) :
    but Z F lz lf (evaluateZone z s) ∧ ∀ x, (evaluateZone z s).active x = s.active x := by
  have off : evaluateZone z s = s.setZone z (shutZone .standby (s.zone z)) := by
    simp [evaluateZone, evaluateChannel, hi, putEvaluated]
  rw [off]
  refine ⟨⟨fun w hw => ?_, h.2⟩, fun _ => rfl⟩
  by_cases e : w = z
  · subst e
    rw [State.zone_setZone]
    exact C.offZone _ _ rfl rfl rfl
  · rw [State.zone_setZone_other _ _ _ _ e]
    exact h.1 w (by simp [e, hw])

theorem but_evaluate (x : Seat) (l : List ZoneId) (lf : List FanId) (hl : ∀ z ∈ l, z.seat = x) (hi : s.active x = false)
    (h : but Z F l lf s) : but Z F [] lf (l.foldl (fun t z => evaluateZone z t) s) ∧
      (l.foldl (fun t z => evaluateZone z t) s).active x = false := by
  induction l generalizing s with
  | nil => exact ⟨h, hi⟩
  | cons z l ih =>
    have hz : z.seat = x := hl z (.head _)
    obtain ⟨k, ka⟩ := C.but_evaluateZone z l lf (hz ▸ hi) h
    exact ih (fun w hw => hl w (.tail _ hw)) ((ka x).trans hi) k

omit C in
theorem rederive_idle (l : Nat) (c : FanChannel) : (rederive false l c).granted = 0 ∧ (rederive false l c).demand = 0 := by
  obtain ⟨hd, hg⟩ := rederive_spec false l c
  exact ⟨by rw [hg]; simp [fanDemand], by rw [hd]; simp [fanDemand]⟩

theorem but_setFan (f : FanId) (c : FanChannel) (lz : List ZoneId) (lf : List FanId) (hc : c.granted = 0 ∧ c.demand = 0)
    (h : but Z F lz (f :: lf) s) : but Z F lz lf (s.setFan f c) := by
  refine ⟨h.1, fun g hg => ?_⟩
  by_cases e : g = f
  · subst e
    rw [State.fan_setFan]
    exact C.offFan _ _ hc.1 hc.2
  · rw [State.fan_setFan_other _ _ _ _ e]
    exact h.2 g (by simp [e, hg])

/-- The fans of an idle seat are off once their demands are derived anew. -/
theorem but_fans (x : Seat) (op : FanId → State → State) (l : List FanId)
    (hop : ∀ f u, ∃ n c, op f u = u.setFan f (rederive (u.active f.seat) n c)) (hl : ∀ f ∈ l, f.seat = x)
    (hi : s.active x = false) (h : but Z F [] l s) : but Z F [] [] (l.foldl (fun t f => op f t) s) := by
  induction l generalizing s with
  | nil => exact h
  | cons f l ih =>
    have hf : f.seat = x := hl f (.head _)
    obtain ⟨n, c, e⟩ := hop f s
    simp only [List.foldl_cons, e, hf, hi]
    exact ih (fun g hg => hl g (.tail _ hg)) hi (C.but_setFan f _ _ _ (rederive_idle _ _) h)

omit C in
theorem seat_of_mem_seatZones {x : Seat} {z : ZoneId} (h : z ∈ seatZones x) : z.seat = x := by
  obtain ⟨p, -, rfl⟩ := List.mem_map.1 h
  rfl

omit C in
theorem mem_seatZones (z : ZoneId) : z ∈ seatZones z.seat := by
  obtain ⟨x, p⟩ := z
  cases p <;> simp [seatZones, heatParts]

omit C in
theorem seat_of_mem_seatFans {x : Seat} {f : FanId} (h : f ∈ seatFans x) : f.seat = x := by
  simp only [seatFans, List.mem_cons, List.not_mem_nil, or_false] at h
  rcases h with rfl | rfl <;> rfl

omit C in
theorem mem_seatFans (f : FanId) : f ∈ seatFans f.seat := by
  obtain ⟨x, p⟩ := f
  cases p <;> simp [seatFans]

omit C in
/-- A changed seat record leaves the loads of the other seat alone. -/
theorem but_modSeat (x : Seat) (g : SeatRecord → SeatRecord) (h : s.loads Z F) :
    but Z F (seatZones x) (seatFans x) (s.modSeat x g) := by
  have act (y : Seat) (hy : y ≠ x) : (s.modSeat x g).active y = s.active y := by simp [State.active, hy]
  refine ⟨fun z hz => ?_, fun f hf => ?_⟩
  · rw [act z.seat fun e => hz (e ▸ mem_seatZones z)]
    exact h.1 z
  · rw [act f.seat fun e => hf (e ▸ mem_seatFans f)]
    exact h.2 f

omit C in
theorem but_nil : but Z F [] [] s ↔ s.loads Z F := by simp [but, State.loads]

theorem idleLoads (x : Seat) (g : SeatRecord → SeatRecord) (s : State) (hg : (g (s.seat x)).occupancy.active = false)
    (h : s.loads Z F) : (occupyLoads x (s.modSeat x g)).loads Z F := by
  have hi : (s.modSeat x g).active x = false := by simpa [State.active] using hg
  obtain ⟨kz, ka⟩ := C.but_evaluate x (seatZones x) (seatFans x) (fun _ => seat_of_mem_seatZones) hi (but_modSeat x g h)
  exact but_nil.1 (C.but_fans x rederiveFan (seatFans x) (fun _ _ => ⟨_, _, rfl⟩) (fun _ => seat_of_mem_seatFans) ka kz)

omit C in
theorem zone_restartSeatStepDown (x : Seat) (s : State) (z : ZoneId) :
    ((restartSeatStepDown x s).zone z).gate = (s.zone z).gate ∧
    ((restartSeatStepDown x s).zone z).request = (s.zone z).request ∧
    ((restartSeatStepDown x s).zone z).grant = (s.zone z).grant := by
  rw [restartSeatStepDown_eq]
  obtain ⟨y, p⟩ := z
  cases x <;> cases y <;> simp [State.zone, PerSeat.set, PerSeat.get, restartStepDown]

theorem emptySeat (x : Seat) (g : SeatRecord → SeatRecord) (k : Cursor → Cursor) (s : State)
    (hg : (g (s.seat x)).occupancy.active = false) (h : s.loads Z F) :
    (emptySeatFans x (evaluateSeatZones x (restartSeatStepDown x ((s.modSeat x g).modCursor x k)))).loads Z F := by
  have hi : (restartSeatStepDown x ((s.modSeat x g).modCursor x k)).active x = false := by
    show (s.modSeat x g).active x = false
    simpa [State.active] using hg
  have kb := but_modSeat x g h
  have kr : but Z F (seatZones x) (seatFans x) (restartSeatStepDown x ((s.modSeat x g).modCursor x k)) :=
    ⟨fun z hz => by
      obtain ⟨e1, e2, e3⟩ := zone_restartSeatStepDown x ((s.modSeat x g).modCursor x k) z
      exact C.sameZone _ _ _ e1 e2 e3 (kb.1 z hz), kb.2⟩
  obtain ⟨kz, ka⟩ := C.but_evaluate x (seatZones x) (seatFans x) (fun _ => seat_of_mem_seatZones) hi kr
  exact but_nil.1 (C.but_fans x (handFan false) (seatFans x) (fun _ _ => ⟨_, _, rfl⟩) (fun _ => seat_of_mem_seatFans) ka kz)

/-- The loads as power-on leaves them, and as RESET SEATS does. -/
theorem allOff (hz : ∀ z, (s.zone z).gate = false ∧ (s.zone z).request = 0 ∧ (s.zone z).grant = 0)
    (hf : ∀ f, (s.fan f).granted = 0 ∧ (s.fan f).demand = 0) : s.loads Z F :=
  ⟨fun z => C.offZone _ _ (hz z).1 (hz z).2.1 (hz z).2.2, fun f => C.offFan _ _ (hf f).1 (hf f).2⟩

omit C in
theorem zone_off_reset (z : ZoneId) : (State.reset.zone z).gate = false ∧ (State.reset.zone z).request = 0 ∧
    (State.reset.zone z).grant = 0 := by
  obtain ⟨x, p⟩ := z
  cases x <;> cases p <;> exact ⟨rfl, rfl, rfl⟩

omit C in
theorem fan_off_reset (f : FanId) : (State.reset.fan f).granted = 0 ∧ (State.reset.fan f).demand = 0 := by
  obtain ⟨x, p⟩ := f
  cases x <;> cases p <;> exact ⟨rfl, rfl⟩

theorem reset : State.reset.loads Z F := C.allOff zone_off_reset fan_off_reset

theorem powerOn (ads : BitVec 2) (l r : Bool) (v : Nat) (s : State) : (powerOnPass (poweredUp ads l r v s)).loads Z F :=
  C.handOff _ (grantOf_le (poweredUp ads l r v s)) (levelOf_le (poweredUp ads l r v s))
    (C.allOff zone_off_reset fan_off_reset)

omit C in
theorem zone_clearSeats (s : State) (z : ZoneId) :
    ((clearSeats s).zone z).gate = false ∧ ((clearSeats s).zone z).request = 0 ∧ ((clearSeats s).zone z).grant = 0 := by
  obtain ⟨x, p⟩ := z
  cases x <;> cases p <;> exact ⟨rfl, rfl, rfl⟩

omit C in
theorem fan_clearSeats (s : State) (f : FanId) : ((clearSeats s).fan f).granted = 0 ∧ ((clearSeats s).fan f).demand = 0 := by
  obtain ⟨x, p⟩ := f
  cases x <;> cases p <;> exact ⟨rfl, rfl⟩

omit C in
theorem zone_storeScan (v : PerSeat (Five Int)) (s : State) (z : ZoneId) :
    ((storeScan v s).zone z).gate = (s.zone z).gate ∧ ((storeScan v s).zone z).request = (s.zone z).request ∧
    ((storeScan v s).zone z).grant = (s.zone z).grant := by
  obtain ⟨x, p⟩ := z
  cases x <;> cases p <;> exact ⟨rfl, rfl, rfl⟩

omit C in
theorem zone_later (s : State) (z : ZoneId) :
    (s.later.zone z).gate = (s.zone z).gate ∧ (s.later.zone z).request = (s.zone z).request ∧
    (s.later.zone z).grant = (s.zone z).grant := by
  have e : s.later.zone z = zoneLater s (decide (10 ≤ s.frameMs + 1)) z := by
    obtain ⟨x, p⟩ := z
    cases x <;> cases p <;> rfl
  rw [e]
  unfold zoneLater countMinute ZoneChannel.slotOver
  dsimp only
  repeat' split
  all_goals exact ⟨rfl, rfl, rfl⟩

omit C in
theorem fan_later (s : State) (f : FanId) : s.later.fan f = (s.fan f).later := by
  obtain ⟨x, p⟩ := f
  cases x <;> cases p <;> rfl

omit C in
theorem active_later (s : State) (x : Seat) : s.later.active x = s.active x := by cases x <;> rfl

/-- A law of the channels that what happens to a channel keeps, every step keeps. -/
theorem keep : StepKeep False (State.loads Z F) (State.loads Z F) where
  toLoadsKeep := C.loads
  toAirKeep := (AirAtoms.of_pass (P := State.loads Z F)
    (fun s t e h => by cases s; cases t; cases e; exact h) (fun s t e h => by rw [e]; exact h) (fun _ h => h) (fun _ => C.passCore)
    (fun _ _ _ h => h)).air
  idleLoads := C.idleLoads
  emptySeat x g k s hg _ h := C.emptySeat x g k s hg h
  resetAir s h := by
    obtain ⟨p, l, e⟩ := resetAir_touches s
    rw [e]
    exact C.allOff (s := clearSeats s) (zone_clearSeats s) (fan_clearSeats s)
  modSeat x g s hg h := C.modSeat x g hg h
  storeScan v s h := C.same (s := s) (fun _ => rfl) (zone_storeScan v s) (fun _ => ⟨rfl, rfl⟩) h
  powerOn := C.powerOn
  loseSupply s := C.same (s := State.reset) (t := loseSupply s) (fun _ => rfl) (fun _ => ⟨rfl, rfl, rfl⟩) (fun _ => ⟨rfl, rfl⟩) C.reset
  later s h := C.same (active_later s) (zone_later s) (fun f => by rw [fan_later]; exact ⟨rfl, rfl⟩) h

end ChannelKeep

/-! ## The two laws -/

/-- In an idle seat the output is off and nothing is asked for. -/
def zoneIdle (b : Bool) (c : ZoneChannel) : Prop := b = false → c.gate = false ∧ c.request = 0 ∧ c.grant = 0

def fanIdle (b : Bool) (c : FanChannel) : Prop := b = false → c.granted = 0 ∧ c.demand = 0

theorem idle_keep : ChannelKeep zoneIdle fanIdle where
  zone _ _ _ hc h ha := hc.2 ha (h ha)
  fan _ _ _ hc h ha := hc.2 ha (h ha)
  grant b g c hg h ha := by
    obtain ⟨h1, h2, h3⟩ := h ha
    exact ⟨takeGrant_gate g c h1, by rw [takeGrant_request, h2], by rw [takeGrant_grant]; omega⟩
  level b g c hg h ha := by
    obtain ⟨h1, h2⟩ := h ha
    exact ⟨by rw [setGranted_granted]; omega, h2⟩
  offZone _ _ h1 h2 h3 _ := ⟨h1, h2, h3⟩
  offFan _ _ h1 h2 _ := ⟨h1, h2⟩
  wakeZone _ _ h := by cases h
  wakeFan _ _ h := by cases h
  sameZone b c d h1 h2 h3 h ha := by rw [h1, h2, h3]; exact h ha
  sameFan b c d h1 h2 h ha := by rw [h1, h2]; exact h ha

/-- Settles O55: every load of a seat that turns idle is turned off, and nothing turns it on before the seat is active again. -/
theorem stepKeepsIdleSeatsOff : Obligations.StepKeepsIdleSeatsOff := fun _ _ => idle_keep.keep.step_inEither

/-- No more is granted than is asked for. -/
def zoneWithin (_ : Bool) (c : ZoneChannel) : Prop := c.grant ≤ c.request

def fanWithin (_ : Bool) (c : FanChannel) : Prop := c.granted ≤ c.demand

theorem within_keep : ChannelKeep zoneWithin fanWithin where
  zone _ _ _ hc h := hc.1 h
  fan _ _ _ hc h := hc.1 h
  grant b g c hg _ := by
    unfold zoneWithin
    rw [takeGrant_grant, takeGrant_request]
    exact hg
  level b g c hg _ := hg
  offZone _ c _ h2 h3 := by unfold zoneWithin; omega
  offFan _ c h1 h2 := by unfold fanWithin; omega
  wakeZone _ h := h
  wakeFan _ h := h
  sameZone b c d _ h2 h3 h := by unfold zoneWithin at *; omega
  sameFan b c d h1 h2 h := by unfold fanWithin at *; omega

/-! ## The allocation in force -/

theorem budget_passCore (s : State) :
    (passCore s).budget.result = allocate s.passInput ∧ (passCore s).budget.cEff = s.budget.cEff := by
  show (storeResult (allocate s.passInput) s).budget.result = _ ∧ (storeResult (allocate s.passInput) s).budget.cEff = _
  unfold storeResult noteLimited
  split
  · rw [raiseDevice_touches]
    exact ⟨rfl, rfl⟩
  · exact ⟨rfl, rfl⟩

theorem passCore_allocationFits (s : State) : (passCore s).allocationFits := by
  unfold State.allocationFits
  rw [(budget_passCore s).1, (budget_passCore s).2]
  exact allocate_total_le s.passInput

theorem allocationFits_keep : StepKeep False State.allocationFits fun _ => True where
  toAirKeep := (AirAtoms.of_pass (P := State.allocationFits) (fun s t e h => by cases s; cases t; cases e; exact h)
    (fun s t e h => by rw [e]; exact h) (fun _ _ => trivial) (fun s _ => passCore_allocationFits s)
    (fun g s e h => by unfold State.allocationFits; rw [State.modBudget_budget, e.1, e.2]; exact h)).air
  beforePass _ _ := trivial
  raiseDevice _ _ _ _ _ := trivial
  recompute _ _ _ _ _ _ := trivial
  idleLoads := LoadsKeep.idleLoads (P := State.allocationFits) {} fun _ _ _ h => h
  emptySeat := LoadsKeep.emptySeat (P := State.allocationFits) {} (fun _ _ _ h => h) (fun _ _ _ _ h => h) fun _ _ h => h
  modBudget g s e h := by unfold State.allocationFits; rw [State.modBudget_budget, e.1, e.2.2.2]; exact h
  putShed _ _ _ := trivial
  powerOn ads l r v s := allocate_total_le (poweredUp ads l r v s).passInput
  loseSupply _ := by
    intro _
    show (8 : Nat) ≤ 120
    decide

/-- Settles O56: a request below its grant lowers that at once, and a pass grants no more than is asked for nor than fits. -/
theorem stepKeepsGrantsWithinDemand : Obligations.StepKeepsGrantsWithinDemand :=
  ⟨fun _ _ => within_keep.keep.step_inEither, fun _ _ => allocationFits_keep.step_inEither⟩

end Sys2Proof.Machine
end
section
/-! PROOFS. No command but those that may rewrite the store changes the content of a record (O59). -/
namespace Sys2Proof.Machine

/-- The store in order, each record with the content given. -/
def holdsContent (content : StepIndex → Content) (s : State) : Prop := s.stored ∧ ∀ i : StepIndex, (s.ramRecord i).content = content i

theorem holdsContent_putRam {content : StepIndex → Content} {s : State} (i : StepIndex) (w : Nat) (hi : inRom i = false)
    (h : holdsContent content s) : holdsContent content (s.putRam i { content := (s.ramRecord i).content, weight := w }) := by
  obtain ⟨hs, hc⟩ := h
  refine ⟨⟨putRam_wf s i _ hs.1 hi, hs.2⟩, fun k => ?_⟩
  by_cases e : k = i
  · subst e
    rw [ramRecord_putRam s k _ hs.1]
    exact hc k
  · rw [ramRecord_putRam_other s i k _ hs.1 e]
    exact hc k

/-- A correction writes a record back as it was; a failed read writes none. -/
theorem holdsContent_readRecord {content : StepIndex → Content} {s : State} (i : StepIndex) (h : holdsContent content s) :
    holdsContent content (readRecord i s) := by
  unfold readRecord
  split
  · rename_i hs
    have hi : inRom i = false := by
      cases e : inRom i with
      | false => rfl
      | true => simp [State.storeAnswer, e] at hs
    have k := holdsContent_putRam i 0 hi h
    unfold correctRecord
    dsimp only
    split
    · exact k
    · rw [raiseDevice_touches]
      exact k
  · unfold failRead
    rw [raiseDevice_touches]
    exact h
  · exact h
  · exact h

theorem Stirs.holdsContent {content : StepIndex → Content} {P : Seat → Prop} {s t : State} (k : Stirs P s t)
    (h : holdsContent content s) : Machine.holdsContent content t := by
  induction k with
  | same | air _ _ _ ih | reports _ _ ih | releases _ _ ih | cursor _ _ _ _ _ ih | regulator _ _ _ _ ih | zeroSetpoint _ _ _ ih
  | underfill _ _ ih => assumption
  | raised _ n reached m _ ih => rw [deliver_touches]; exact ih
  | pass _ ih => rw [passCore_touches]; exact ih
  | read _ i ih => exact holdsContent_readRecord i ih

theorem holdsContent_keep (content : StepIndex → Content) : OpsKeep False (holdsContent content) (holdsContent content) where
  toAirKeep := .of_stirs (fun s t e h => by cases s; cases t; cases e; exact h) (fun _ _ k => k.holdsContent) (fun _ _ _ h => h)
    (fun _ _ h => h)
  idleLoads := LoadsKeep.idleLoads (P := holdsContent content) {} fun _ _ _ h => h
  emptySeat := LoadsKeep.emptySeat (P := holdsContent content) {} (fun _ _ _ h => h) (fun _ _ _ _ h => h) fun _ _ h => h
  readRecord i s := holdsContent_readRecord i
  disturb i s h := by
    unfold disturb
    split
    · exact h
    · rename_i hi
      exact holdsContent_putRam i _ (by simpa using hi) h
  putEntry n e s hlo hhi h := ⟨stored_keep.putEntry n e s hlo hhi h.1, h.2⟩
  putParam n v s hn h44 h52 h := ⟨putParam_stored n v s hn h.1, h.2⟩
  putShed v s h := ⟨putParam_stored 44 v s (by decide) h.1, h.2⟩
  putRotation v s h := ⟨putParam_stored 52 v s (by decide) h.1, h.2⟩

/-- Settles O59: a correction and a bit error leave the content, and nothing else that these commands do reaches a record. -/
theorem onlyWriteStepChangesContent : Obligations.OnlyWriteStepChangesContent :=
  fun c content _ _ hc hs ht => (holdsContent_keep content).exec_inEither c hc hs ht

end Sys2Proof.Machine
end
section
/-! PROOFS. The laws of the pump grant queue (spec/05 R94, R99), kept by every update of the pneumatic controller (O57). -/
namespace Sys2Proof.Machine

/-! ## A queue and its holder -/

/-- An entry with a non-empty cell set and a target of 400 at most. -/
def Entry.sound (e : Entry) : Prop := e.cells ≠ 0 ∧ e.target ≤ 400

/-- One entry per requester, the holder's entry sound and never queued, each entry sound. -/
def queueOk (q : List Entry) (h : Option Holder) : Prop :=
  (q.map (·.requester)).Nodup ∧ (∀ e ∈ q, e.sound) ∧ ∀ g, h = some g → g.entry.sound ∧ ∀ e ∈ q, e.requester ≠ g.entry.requester

theorem queueOk_nil (h : Option Holder) (hh : ∀ g, h = some g → g.entry.sound) : queueOk [] h :=
  ⟨List.nodup_nil, by simp, fun g e => ⟨hh g e, by simp⟩⟩

theorem queueOk.noHolder {q : List Entry} {h : Option Holder} (k : queueOk q h) : queueOk q none :=
  ⟨k.1, k.2.1, by intro g e; cases e⟩

/-- A holder's record may change but for its entry. -/
theorem queueOk.sameEntry {q : List Entry} {h : Option Holder} {g g' : Holder} (k : queueOk q h) (hg : h = some g)
    (e : g'.entry = g.entry) : queueOk q (some g') :=
  ⟨k.1, k.2.1, by intro x hx; cases hx; rw [e]; exact k.2.2 g hg⟩

theorem queueOk.sublist {q l : List Entry} {h : Option Holder} (k : queueOk q h) (hl : l.Sublist q) : queueOk l h :=
  ⟨k.1.sublist (hl.map _), fun e he => k.2.1 e (hl.subset he),
   fun g hg => ⟨(k.2.2 g hg).1, fun e he => (k.2.2 g hg).2 e (hl.subset he)⟩⟩

/-- A grant takes its entry off the queue. -/
theorem queueOk.grant {q : List Entry} {h : Option Holder} (k : queueOk q h) (e : Entry) (he : e ∈ q) (g : Holder)
    (hg : g.entry = e) : queueOk (removeEntry e.requester q) (some g) := by
  obtain ⟨hn, hs, -⟩ := k.noHolder.sublist (removeEntry_sublist e.requester q)
  refine ⟨hn, hs, fun x hx => ?_⟩
  cases hx
  rw [hg]
  exact ⟨k.2.1 e he, fun a ha => ((mem_removeEntry _ _ _).1 ha).2⟩

/-- An entry of a requester that does not wait goes to the head, no grant being held. -/
theorem queueOk.push {q : List Entry} {h : Option Holder} (k : queueOk q h) (e : Entry) (he : e.sound)
    (hq : ∀ a ∈ q, a.requester ≠ e.requester) : queueOk (e :: q) none := by
  obtain ⟨hn, hs, -⟩ := k
  refine ⟨?_, ?_, by intro g e; cases e⟩
  · simp only [List.map_cons, List.nodup_cons, List.mem_map, not_exists, not_and]
    exact ⟨hq, hn⟩
  · simpa using ⟨he, hs⟩

/-- An entry of a requester that neither waits nor holds goes to the tail. -/
theorem queueOk.append {q : List Entry} {h : Option Holder} (k : queueOk q h) (e : Entry) (he : e.sound)
    (hq : ∀ a ∈ q, a.requester ≠ e.requester) (hh : ∀ g, h = some g → e.requester ≠ g.entry.requester) :
    queueOk (q ++ [e]) h := by
  obtain ⟨hn, hs, hg⟩ := k
  have mem (P : Entry → Prop) (h1 : ∀ a ∈ q, P a) (h2 : P e) : ∀ a ∈ q ++ [e], P a := by
    intro a ha
    rcases List.mem_append.1 ha with h | h
    · exact h1 a h
    · rw [List.mem_singleton.1 h]; exact h2
  refine ⟨?_, mem _ hs he, fun g e' => ⟨(hg g e').1, mem _ (hg g e').2 (hh g e')⟩⟩
  rw [List.map_append, List.nodup_append]
  refine ⟨hn, by simp, ?_⟩
  intro a ha b hb
  obtain ⟨x, hx, rfl⟩ := List.mem_map.1 ha
  simp only [List.map_cons, List.map_nil, List.mem_singleton] at hb
  subst hb
  exact hq x hx

theorem requester_replaceEntry (e : Entry) (q : List Entry) : (replaceEntry e q).map (·.requester) = q.map (·.requester) := by
  unfold replaceEntry
  rw [List.map_map]
  refine List.map_congr_left fun a _ => ?_
  simp only [Function.comp_apply]
  split
  · rename_i h
    exact h.symm
  · rfl

theorem forall_replaceEntry {P : Entry → Prop} (e : Entry) (q : List Entry) (he : P e) (hq : ∀ a ∈ q, P a) :
    ∀ a ∈ replaceEntry e q, P a := by
  intro a ha
  obtain ⟨b, hb, rfl⟩ := List.mem_map.1 ha
  split
  · exact he
  · exact hq b hb

/-- An entry is replaced in its place. -/
theorem queueOk.replace {q : List Entry} {h : Option Holder} (k : queueOk q h) (e : Entry) (he : e.sound) :
    queueOk (replaceEntry e q) h := by
  obtain ⟨hn, hs, hg⟩ := k
  refine ⟨by rw [requester_replaceEntry]; exact hn, forall_replaceEntry e q he hs, fun g hh => ⟨(hg g hh).1, ?_⟩⟩
  intro a ha
  have : a.requester ∈ q.map (·.requester) := by
    rw [← requester_replaceEntry e q]
    exact List.mem_map_of_mem ha
  obtain ⟨b, hb, hr⟩ := List.mem_map.1 this
  rw [← hr]
  exact (hg g hh).2 b hb

/-- There are four requesters. -/
theorem length_le_four (l : List Requester) (h : l.Nodup) : l.length ≤ 4 := by
  have all : l ⊆ [.massage .left, .massage .right, .support .left, .support .right] := by
    intro r _
    rcases r with x | x <;> cases x <;> simp
  exact List.Nodup.length_le_of_subset h all

theorem isQueued_false {s : State} {r : Requester} (h : s.isQueued r = false) : ∀ e ∈ s.pneu.queue, e.requester ≠ r := by
  simpa [State.isQueued] using h

theorem heldBy_none {s : State} {r : Requester} (h : s.heldBy r = none) : ∀ g, s.pneu.holder = some g → r ≠ g.entry.requester := by
  intro g hg e
  simp [State.heldBy, hg, e] at h

theorem requestEntry_sound (r : Requester) (c : CellSet) (g : Nat) (hc : c ≠ 0) : (requestEntry r c g).sound :=
  ⟨hc, Nat.min_le_right _ _⟩

/-! ## The law of the state -/

/-- The queue in order and the rotation count within the limit. -/
def airOk (k : Nat) (p : Pneumatic) : Prop := queueOk p.queue p.holder ∧ p.rotation ≤ k

theorem queueLaws_iff (s : State) : s.queueLaws ↔ airOk s.rotationLimit s.pneu := by
  constructor
  · rintro ⟨hn, -, hh, he, hr⟩
    exact ⟨⟨hn, he, fun g e => ⟨⟨(hh g e).1, (hh g e).2.1⟩, (hh g e).2.2⟩⟩, hr⟩
  · rintro ⟨⟨hn, he, hh⟩, hr⟩
    refine ⟨hn, ?_, fun g e => ⟨(hh g e).1.1, (hh g e).1.2, (hh g e).2⟩, he, hr⟩
    rw [← List.length_map (f := fun e : Entry => e.requester)]
    exact length_le_four _ hn

/-- The store in order and the queue with it. -/
abbrev queueInOrder (s : State) : Prop := s.stored ∧ s.queueLaws

/-- The rotation limit is 1 at least. -/
theorem one_le_rotationLimit (s : State) (h : s.stored) : 1 ≤ s.rotationLimit := by
  have key (v : Nat) : 1 ≤ nearestAllowed (paramRange 52) v := by
    show 1 ≤ clampNat 1 7 v
    unfold clampNat
    omega
  obtain ⟨-, -, hp⟩ := h
  simp only [Params.wf, Bool.and_eq_true] at hp
  have look : ∀ l : List (Nat × Nat), (l.all fun e => nearestAllowed (paramRange e.1) e.2 == e.2) = true →
      1 ≤ Table.get paramDefault l 52 := by
    intro l hl
    induction l with
    | nil => decide
    | cons e t ih =>
      obtain ⟨n, v⟩ := e
      simp only [List.all_cons, Bool.and_eq_true, beq_iff_eq] at hl
      simp only [Table.get]
      split
      · rename_i hn
        rw [← hl.1, ← hn]
        exact key v
      · exact ih hl.2
  exact look s.params hp.2

/-- An update of the pneumatic controller alone keeps the law where the controller's part of it stands. -/
theorem queueInOrder_of_air {s t : State} (a : airOnly s t) (h : queueInOrder s) (k : airOk s.rotationLimit t.pneu) :
    queueInOrder t := by
  have hs : t.stored := by rw [a]; exact h.1
  have hl : t.rotationLimit = s.rotationLimit := by rw [a]; rfl
  exact ⟨hs, (queueLaws_iff t).2 (hl ▸ k)⟩

theorem queueInOrder.airOk {s : State} (h : queueInOrder s) : Machine.airOk s.rotationLimit s.pneu := (queueLaws_iff s).1 h.2

theorem pneu_orderSelector (d : SelPos) (s : State) :
    (orderSelector d s).pneu = { s.pneu with selector := (orderSelector d s).pneu.selector } := by
  unfold orderSelector
  split <;> rfl

theorem pneu_endFill (h : Holder) (how : FillEnd) (s : State) : (endFill h how s).pneu =
    { s.pneu with compressor := false, holder := none, parkNone := s.parksNowhere, vents := (endFill h how s).pneu.vents } := by
  unfold endFill
  dsimp only
  split <;> rfl

theorem airOk_orderSelector {k : Nat} {s : State} (d : SelPos) (h : airOk k s.pneu) : airOk k (orderSelector d s).pneu := by
  rw [pneu_orderSelector]
  exact h

theorem airOk_endFill {k : Nat} {s : State} (g : Holder) (how : FillEnd) (h : airOk k s.pneu) : airOk k (endFill g how s).pneu := by
  rw [pneu_endFill]
  exact ⟨h.1.noHolder, h.2⟩

theorem airOk_grantEntry {s : State} (e : Entry) (hs : s.stored) (hc : choose s = some e) (h : airOk s.rotationLimit s.pneu) :
    airOk s.rotationLimit (grantEntry (.granted e) s).pneu :=
  ⟨h.1.grant e (choose_mem hc).1 _ rfl, countGrant_rotation _ _ _ (one_le_rotationLimit s hs) h.2⟩

theorem airOk_takeP0 {k : Nat} {s : State} (h : Holder) (hh : s.pneu.holder = some h) (o : airOk k s.pneu) :
    airOk k (takeP0 h s).pneu := ⟨o.1.sameEntry hh rfl, o.2⟩

theorem airOnly_grantEntry (h : Holder) (s : State) : airOnly s (grantEntry h s) := rfl

theorem airOnly_takeP0 (h : Holder) (s : State) : airOnly s (takeP0 h s) := rfl

theorem airOnly_storeSamples (l r : Int) (s : State) : airOnly s (storeSamples l r s) := rfl

theorem queueInOrder_of_part (s t : State) (e : s.toPart = t.toPart) (h : queueInOrder s) : queueInOrder t := by
  cases s
  cases t
  cases e
  exact h

theorem queueInOrder_passCore (s : State) (h : queueInOrder s) : queueInOrder (passCore s) := by
  rw [passCore_touches]
  exact h

theorem queue_arbiter : ArbiterKeep queueInOrder where
  part := queueInOrder_of_part
  idlePass s _ := queueInOrder_passCore s
  neutral s _ h := queueInOrder_of_air (airOnly_orderSelector _ s) h (airOk_orderSelector _ h.airOk)
  grantMoving e s _ hc h :=
    queueInOrder_of_air (.trans (airOnly_grantEntry _ s) (airOnly_orderSelector _ _)) h
      (airOk_orderSelector _ (airOk_grantEntry e h.1 hc h.airOk))
  grantFilling e s _ hc _ _ h :=
    queueInOrder_of_air (s := s) rfl h (airOk_takeP0 (s := grantEntry (.granted e) s) _ rfl (airOk_grantEntry e h.1 hc h.airOk))
  grantEnded e _ s _ hc h :=
    queueInOrder_of_air (.trans (.trans (airOnly_grantEntry _ s) (airOnly_takeP0 _ _)) (airOnly_endFill _ _ _)) h
      (airOk_endFill _ _ (airOk_takeP0 _ rfl (airOk_grantEntry e h.1 hc h.airOk)))

/-- The entry of a requester that does not wait goes to the head of the queue. -/
theorem airOk_requeue {k : Nat} {s : State} (e : Entry) (b : Bool) (he : e.sound) (hq : ∀ a ∈ s.pneu.queue, a.requester ≠ e.requester)
    (h : airOk k s.pneu) : airOk k (requeue e b s).pneu := ⟨h.1.push { e with resumed := true } he hq, h.2⟩

theorem queue_atoms (owned : Prop) : AirAtoms owned queueInOrder queueInOrder queueInOrder where
  toArbiterKeep := queue_arbiter
  beforePass _ h := h
  pass := queueInOrder_passCore
  peak _ _ _ h := h
  permit _ _ h := h
  refuse g s hh h := by
    obtain ⟨he, hq⟩ := h.airOk.1.2.2 g hh
    exact queueInOrder_of_air rfl h (airOk_requeue _ _ he hq h.airOk)
  endFill g how s _ h := queueInOrder_of_air (airOnly_endFill _ _ s) h (airOk_endFill _ _ h.airOk)
  replace r c g s _ hc h := queueInOrder_of_air rfl h ⟨h.airOk.1.replace _ (requestEntry_sound r c g hc), h.airOk.2⟩
  rehold r c g s _ hc hq h :=
    queueInOrder_of_air rfl h (airOk_requeue _ _ (requestEntry_sound r c g hc) (isQueued_false hq) h.airOk)
  append r c g s _ hc hq hh h :=
    queueInOrder_of_air rfl h
      ⟨h.airOk.1.append _ (requestEntry_sound r c g hc) (isQueued_false hq) (heldBy_none hh), h.airOk.2⟩
  remove r s h := queueInOrder_of_air rfl h ⟨h.airOk.1.sublist (removeEntry_sublist r _), h.airOk.2⟩
  vent _ _ _ _ _ h := h
  freedVent r c g s _ _ h :=
    show queueInOrder (finishFill g .withdrawn s) from
      queue_arbiter.release (endFill_holder _ _ _) (queueInOrder_of_air (airOnly_endFill _ _ s) h (airOk_endFill _ _ h.airOk))
  dropVent _ _ h := h
  sampleEnded l r g how s _ h :=
    queueInOrder_of_air (.trans (airOnly_storeSamples l r s) (airOnly_endFill _ _ _)) h (airOk_endFill _ _ h.airOk)
  samples _ _ _ _ h := h
  arrived _ _ _ h := h
  arrivedEnded g how s hh h :=
    queueInOrder_of_air (.trans (airOnly_takeP0 g s) (airOnly_endFill _ _ _)) h (airOk_endFill _ _ (airOk_takeP0 g hh h.airOk))
  arrivedFilling g s hh _ _ _ h := queueInOrder_of_air (s := s) rfl h (airOk_takeP0 (s := s) g hh h.airOk)

/-! ## Every step -/

theorem airOk_reset : airOk State.reset.rotationLimit State.reset.pneu :=
  ⟨queueOk_nil none (by intro g e; cases e), Nat.zero_le _⟩

theorem reset_queueInOrder : queueInOrder State.reset := ⟨reset_stored, (queueLaws_iff _).2 airOk_reset⟩

/-- RESET SEATS leaves no entry, no holder and the count at 0. -/
theorem resetAir_pneu (s : State) : (dropSeatNotices (resetPneumatic (clearSeats s))).pneu.queue = [] ∧
    (dropSeatNotices (resetPneumatic (clearSeats s))).pneu.holder = none ∧
    (dropSeatNotices (resetPneumatic (clearSeats s))).pneu.rotation = 0 := by
  show (resetPneumatic (clearSeats s)).pneu.queue = [] ∧ (resetPneumatic (clearSeats s)).pneu.holder = none ∧
    (resetPneumatic (clearSeats s)).pneu.rotation = 0
  unfold resetPneumatic
  dsimp only
  rw [pneu_orderSelector]
  exact ⟨rfl, rfl, rfl⟩

theorem stored_resetAir (s : State) (h : s.stored) : (dropSeatNotices (resetPneumatic (clearSeats s))).stored := by
  obtain ⟨p, l, e⟩ := resetAir_touches s
  rw [e]
  exact h

theorem rotationLimit_putParam_other (s : State) (n v : Nat) (h : s.stored) (hn : n ≠ 52) :
    (s.putParam n v).rotationLimit = s.rotationLimit := param_putParam_other s n 52 v h.2.2 (Ne.symm hn)

theorem queueInOrder_putParam (n v : Nat) (s : State) (hn : n ≤ 59) (h52 : n ≠ 52) (h : queueInOrder s) :
    queueInOrder (s.putParam n (nearestAllowed (paramRange n) v)) :=
  ⟨putParam_stored n v s hn h.1, (queueLaws_iff _).2 (by rw [rotationLimit_putParam_other s n _ h.1 h52]; exact h.airOk)⟩

theorem queueInOrder_keep (owned : Prop) (hc : owned → False) : StepKeep owned queueInOrder queueInOrder where
  toAirKeep := (queue_atoms owned).air
  riseOver g s hh h := queueInOrder_of_air rfl h ⟨h.airOk.1.sameEntry hh rfl, h.airOk.2⟩
  resetAir s h := ⟨stored_resetAir s h.1, (queueLaws_iff _).2 (by
    obtain ⟨hq, hh, hr⟩ := resetAir_pneu s
    unfold airOk
    rw [hq, hh, hr]
    exact ⟨queueOk_nil none (by intro g e; cases e), Nat.zero_le _⟩)⟩
  copyOwned h := (hc h).elim
  fetchOwned h := (hc h).elim
  idleLoads := LoadsKeep.idleLoads (P := queueInOrder) {} fun _ _ _ h => h
  emptySeat := LoadsKeep.emptySeat (P := queueInOrder) {} (fun _ _ _ h => h) (fun _ _ _ _ h => h) fun _ _ h => h
  readRecord i s h := ⟨stored_keep.readRecord i s h.1, by rw [readRecord_touches]; exact h.2⟩
  disturb i s h := ⟨disturb_stored i s h.1, by unfold disturb; split <;> exact h.2⟩
  putEntry n e s hlo hhi h := ⟨stored_keep.putEntry n e s hlo hhi h.1, h.2⟩
  putParam n v s hn _ h52 h := queueInOrder_putParam n v s hn h52 h
  putShed v s h := queueInOrder_putParam 44 v s (by decide) (by decide) h
  putRotation v s h := ⟨putParam_stored 52 v s (by decide) h.1, (queueLaws_iff _).2 ⟨h.airOk.1, Nat.min_le_right _ _⟩⟩
  putRam i r s hi hm h := ⟨stored_keep.putRam i r s hi hm h.1, h.2⟩
  powerOn _ _ _ _ _ := reset_queueInOrder
  loseSupply _ := reset_queueInOrder
  later s h := ⟨h.1, (queueLaws_iff _).2 ⟨⟨h.airOk.1.1, h.airOk.1.2.1, fun g e => by
    obtain ⟨k, hk, rfl⟩ := Option.map_eq_some_iff.1 e
    exact h.airOk.1.2.2 k hk⟩, h.airOk.2⟩⟩

/-- Settles O57: each update of the queue, of the holder and of the rotation count keeps their laws. -/
theorem stepKeepsQueueLaws : Obligations.StepKeepsQueueLaws := fun _ _ => (queueInOrder_keep False id).step_inEither

end Sys2Proof.Machine
end
section
/-! PROOFS. The compressor's law (spec/05 R90), kept by every update of the pneumatic controller (O58, first part). -/
namespace Sys2Proof.Machine

/-- A compressor that is on fills for a holder below 500 with the selector at rest at its seat. -/
def State.compressorFills (s : State) : Prop := s.pneu.compressor = true →
  ∃ h, s.pneu.holder = some h ∧ h.p0.isSome = true ∧ s.manifoldOf h.seat < 500 ∧ s.pneu.selector = .atRest (seatPos h.seat)

/-- A grant is held with the pump permitted. -/
def State.holderPermitted (s : State) : Prop := s.pneu.holder.isSome = true → s.budget.result.permitted = true

theorem compressorLaw_iff (s : State) : s.compressorLaw ↔ s.holderPermitted ∧ s.compressorFills := Iff.rfl

theorem compressorFills_of_off {s : State} (h : s.pneu.compressor = false) : s.compressorFills := by
  intro e
  rw [h] at e
  cases e

theorem holderPermitted_of_none {s : State} (h : s.pneu.holder = none) : s.holderPermitted := by
  intro e
  rw [h] at e
  cases e

theorem holderPermitted_of {s : State} (h : s.budget.result.permitted = true) : s.holderPermitted := fun _ => h

/-- With no grant held and the compressor off, the law holds. -/
theorem compressorLaw_of_rest {s : State} (hh : s.pneu.holder = none) (hc : s.pneu.compressor = false) : s.compressorLaw :=
  ⟨holderPermitted_of_none hh, compressorFills_of_off hc⟩

/-- With no grant held the compressor is off. -/
theorem compressor_off {s : State} (h : s.compressorFills) (hh : s.pneu.holder = none) : s.pneu.compressor = false := by
  cases e : s.pneu.compressor with
  | false => rfl
  | true =>
    obtain ⟨g, hg, -⟩ := h e
    rw [hh] at hg
    cases hg

theorem compressorLaw_endFill (h : Holder) (how : FillEnd) (s : State) : (endFill h how s).compressorLaw :=
  compressorLaw_of_rest (endFill_holder h how s) (by rw [pneu_endFill])

theorem compressor_orderSelector (d : SelPos) (s : State) : (orderSelector d s).pneu.compressor = s.pneu.compressor := by
  rw [pneu_orderSelector]

theorem compressorFills_passCore {s : State} (h : s.compressorFills) : (passCore s).compressorFills := by
  unfold State.compressorFills State.manifoldOf
  rw [passCore_pneu]
  exact h

theorem holder_none_of_maySelect {s : State} (h : s.maySelect = true) : s.pneu.holder = none := ((maySelect_iff s).1 h).1

theorem permitted_of_maySelect {s : State} (h : s.maySelect = true) : s.budget.result.permitted = true := ((maySelect_iff s).1 h).2.1

theorem budget_airOnly {s t : State} (a : airOnly s t) : t.budget = s.budget := by rw [a]

theorem lt_of_startCheck {h : Holder} {m : Nat} (e : startCheck h m = none) : m < 500 := by
  unfold startCheck at e
  split at e
  · cases e
  · omega

theorem compressor_arbiter : ArbiterKeep State.compressorLaw where
  part s t e h := by cases s; cases t; cases e; exact h
  idlePass s hn h := compressorLaw_of_rest (by rw [passCore_pneu]; exact hn) (by rw [passCore_pneu]; exact compressor_off h.2 hn)
  neutral s hn h := compressorLaw_of_rest (by rw [pneu_orderSelector]; exact hn) (by rw [pneu_orderSelector]; exact compressor_off h.2 hn)
  grantMoving e s hm _ h := by
    have off : s.pneu.compressor = false := compressor_off h.2 (holder_none_of_maySelect hm)
    refine ⟨holderPermitted_of ?_, compressorFills_of_off ?_⟩
    · rw [budget_airOnly (airOnly_orderSelector _ _)]
      exact permitted_of_maySelect (s := s) hm
    · rw [compressor_orderSelector]
      show (countGrant _ _ _).compressor = false
      rw [countGrant_compressor]
      exact off
  grantFilling e s hm _ hs hc _ := ⟨holderPermitted_of (permitted_of_maySelect (s := s) hm), fun _ =>
    ⟨_, rfl, rfl, by
      show (countGrant _ _ s.pneu).manifold.get _ < 500
      rw [countGrant_manifold]
      exact lt_of_startCheck hc, by
      show (countGrant _ _ s.pneu).selector = _
      rw [countGrant_selector]
      exact hs⟩⟩
  grantEnded _ _ _ _ _ _ := compressorLaw_endFill _ _ _

theorem compressor_atoms : AirAtoms False State.compressorLaw State.compressorFills State.compressorFills where
  toArbiterKeep := compressor_arbiter
  beforePass _ h := h.2
  pass _ := compressorFills_passCore
  peak _ _ _ h := h
  permit s e h := ⟨by
    rcases e with e | e
    · exact holderPermitted_of e
    · exact holderPermitted_of_none e, h⟩
  refuse _ _ _ _ := compressorLaw_of_rest rfl rfl
  endFill _ _ _ _ _ := compressorLaw_endFill _ _ _
  replace _ _ _ _ _ _ h := h
  rehold _ _ _ _ _ _ _ _ := compressorLaw_of_rest rfl rfl
  append _ _ _ _ _ _ _ _ h := h
  remove _ _ h := h
  vent _ _ _ _ _ h := h
  freedVent _ _ h s _ _ _ :=
    show (finishFill h .withdrawn s).compressorLaw from
      compressor_arbiter.release (endFill_holder _ _ _) (compressorLaw_endFill _ _ _)
  dropVent _ _ h := h
  sampleEnded _ _ _ _ _ _ _ := compressorLaw_endFill _ _ _
  samples l r s hm h := ⟨h.1, fun e => by
    obtain ⟨g, hg, hp, -, hs⟩ := h.2 e
    exact ⟨g, hg, hp, hm g hg hp, hs⟩⟩
  arrived d s hd h := ⟨h.1, fun e => by
    obtain ⟨g, -, -, -, hs⟩ := h.2 e
    rw [hd] at hs
    cases hs⟩
  arrivedEnded _ _ _ _ _ := compressorLaw_endFill _ _ _
  arrivedFilling g s hh hs _ hc h := ⟨holderPermitted_of (h.1 (by rw [hh]; rfl)), fun _ => ⟨_, rfl, rfl, lt_of_startCheck hc, hs⟩⟩

theorem resetAir_compressor (s : State) : (dropSeatNotices (resetPneumatic (clearSeats s))).pneu.compressor = false := by
  show (resetPneumatic (clearSeats s)).pneu.compressor = false
  unfold resetPneumatic
  dsimp only
  rw [pneu_orderSelector]
  rfl

theorem compressor_keep : StepKeep False State.compressorLaw State.compressorFills where
  toAirKeep := compressor_atoms.air
  beforePass _ h := h.2
  recompute _ _ _ _ _ h := h.2
  riseOver g s hh h := ⟨holderPermitted_of (h.1 (by rw [hh]; rfl)), fun e => by
    obtain ⟨k, hk, hp, hm, hs⟩ := h.2 e
    cases hh.symm.trans hk
    exact ⟨_, rfl, hp, hm, hs⟩⟩
  resetAir s _ := compressorLaw_of_rest (resetAir_pneu s).2.1 (resetAir_compressor s)
  idleLoads := LoadsKeep.idleLoads (P := State.compressorLaw) {} fun _ _ _ h => h
  emptySeat := LoadsKeep.emptySeat (P := State.compressorLaw) {} (fun _ _ _ h => h) (fun _ _ _ _ h => h) fun _ _ h => h
  modBudget g s e h := ⟨fun k => by rw [State.modBudget_budget, e.1]; exact h.1 k, h.2⟩
  putShed _ _ h := h.2
  powerOn _ _ _ _ _ := compressorLaw_of_rest rfl rfl
  loseSupply _ := compressorLaw_of_rest rfl rfl
  later s h := ⟨fun e => h.1 (by simpa [State.later, Pneumatic.later] using e), fun e => by
    obtain ⟨g, hg, hp, hm, hs⟩ := h.2 e
    refine ⟨g.later, ?_, hp, hm, ?_⟩
    · show s.pneu.holder.map Holder.later = _
      rw [hg]
      rfl
    · show Selector.later s.pneu.selector = _
      rw [hs]
      rfl⟩

end Sys2Proof.Machine
end
section
/-! PROOFS. Each requester's own cells (spec/05 R91, R94, spec/06 R113), kept by every step (O58, second part). -/
namespace Sys2Proof.Machine

/-! ## What is owned -/

/-- The entry names cells of its requester alone. -/
def Entry.ownsCells (e : Entry) : Prop := e.cells &&& ~~~ownCells e.requester = 0

/-- A requester's vent names cells of its owner alone. -/
def VentOp.ownsCells (v : VentOp) : Prop := ∀ r, v.owner = .requester r → v.cells &&& ~~~ownCells r = 0

/-- The pneumatic controller's part of the law. -/
def airOwned (p : Pneumatic) : Prop :=
  (∀ e ∈ p.queue, e.ownsCells) ∧ (∀ h, p.holder = some h → h.entry.ownsCells) ∧ ∀ v ∈ p.vents, v.ownsCells

/-- The records' and the step copies' part of the law. -/
def State.stepsMassage (s : State) : Prop :=
  (∀ (i : StepIndex) (f : StepFields), (s.ramRecord i).content = some f → massageOnly f) ∧
  ∀ (x : Seat) (f : StepFields), (s.cursor x).copy = some f → massageOnly f

theorem cellsOwned_iff (s : State) : s.cellsOwned ↔ airOwned s.pneu ∧ s.stepsMassage := by
  constructor
  · rintro ⟨hq, hh, hv, hr, hc⟩
    exact ⟨⟨hq, hh, hv⟩, hr, hc⟩
  · rintro ⟨⟨hq, hh, hv⟩, hr, hc⟩
    exact ⟨hq, hh, hv, hr, hc⟩

/-- The store in order, and each requester with its own cells. -/
abbrev ownedInOrder (s : State) : Prop := s.stored ∧ s.cellsOwned

theorem ownedInOrder.airOwned {s : State} (h : ownedInOrder s) : Machine.airOwned s.pneu := ((cellsOwned_iff s).1 h.2).1

theorem ownedInOrder.steps {s : State} (h : ownedInOrder s) : s.stepsMassage := ((cellsOwned_iff s).1 h.2).2

theorem ownedInOrder_of {s : State} (hs : s.stored) (ha : airOwned s.pneu) (hm : s.stepsMassage) : ownedInOrder s :=
  ⟨hs, (cellsOwned_iff s).2 ⟨ha, hm⟩⟩

/-! ## The factory records -/

theorem unreachedStep_massageOnly : massageOnly unreachedStep := by decide

theorem programZero_massageOnly (n : Nat) : massageOnly (programZero n) := by
  unfold programZero
  split <;> decide

/-- A free block that has R115's properties names massage cells alone; the one that stands for it otherwise does so too. -/
theorem freeBlock_massageOnly (k o : Nat) (ho : o < 16) : massageOnly (freeBlock k o) := by
  unfold freeBlock
  split
  · rename_i h
    simp only [blockOk, Bool.and_eq_true, List.all_eq_true] at h
    have offsets : ∀ i, i < 16 → i ∈ blockOffsets := by decide
    have f := h.1.1 o (offsets o ho)
    simp only [fieldsOk, Bool.and_eq_true, beq_iff_eq] at f
    obtain ⟨⟨⟨⟨-, hv⟩, hf⟩, -⟩, -⟩ := f
    exact ⟨hv, hf⟩
  · exact unreachedStep_massageOnly

theorem romRecord_massageOnly (i : Nat) : massageOnly (romRecord i) := by
  unfold romRecord
  split
  · exact programZero_massageOnly i
  · exact freeBlock_massageOnly _ _ (Nat.mod_lt _ (by decide))

/-- What a fetch brings names massage cells alone. -/
theorem fetch_massageOnly {s : State} {i : StepIndex} {f : StepFields} (h : s.stepsMassage) (e : s.fetch i = .inl f) :
    massageOnly f := by
  have ram (b : Bool) (c : Content) (k : s.storeAnswer i = .ram b c) : c = (s.ramRecord i).content := by
    unfold State.storeAnswer at k
    dsimp only at k
    split at k
    · cases k
    · split at k
      · cases k; rfl
      · split at k <;> cases k
        rfl
  unfold State.fetch at e
  split at e
  · rename_i g hg
    cases e
    unfold State.storeAnswer at hg
    dsimp only at hg
    split at hg
    · cases hg
      exact romRecord_massageOnly _
    · split at hg
      · cases hg
      · split at hg <;> cases hg
  · rename_i b g hg
    cases e
    exact h.1 i f (ram _ _ hg).symm
  · cases e
  · cases e

/-! ## The single updates -/

theorem mem_insertVent (v w : VentOp) (l : List VentOp) : w ∈ insertVent v l ↔ w = v ∨ w ∈ l := by
  induction l with
  | nil => simp [insertVent]
  | cons a t ih =>
    unfold insertVent
    split
    · simp
    · rw [List.mem_cons, ih, List.mem_cons]
      exact or_left_comm

/-- The operations after a start: the owner's new one, where it names a cell, and the others. -/
theorem mem_startVent {o : VentOwner} {c : CellSet} {s : State} {w : VentOp} (h : w ∈ (startVent o c s).pneu.vents) :
    w = ⟨o, c, s.ventWindow⟩ ∨ w ∈ s.pneu.vents := by
  have drop (k : w ∈ dropVent o s.pneu.vents) : w ∈ s.pneu.vents := (List.mem_filter.1 k).1
  simp only [startVent, State.modPneu_pneu] at h
  split at h
  · exact .inr (drop h)
  · exact ((mem_insertVent _ _ _).1 h).imp_right drop

theorem ownedInOrder_of_air {s t : State} (a : airOnly s t) (h : ownedInOrder s) (k : airOwned t.pneu) : ownedInOrder t := by
  have hs : t.stored := by rw [a]; exact h.1
  have hm : t.stepsMassage := by rw [a]; exact h.steps
  exact ownedInOrder_of hs k hm

theorem airOwned.noHolder {p : Pneumatic} (h : airOwned p) (b n : Bool) :
    airOwned { p with compressor := b, holder := none, parkNone := n } := ⟨h.1, (by intro g e; cases e), h.2.2⟩

theorem airOwned_startVent {o : VentOwner} {c : CellSet} {s : State} (hc : ∀ r, o = .requester r → c &&& ~~~ownCells r = 0)
    (h : airOwned s.pneu) : airOwned (startVent o c s).pneu := by
  refine ⟨h.1, h.2.1, fun v hv => ?_⟩
  rcases mem_startVent hv with rfl | hv
  · exact hc
  · exact h.2.2 v hv

theorem airOwned_endFill {s : State} (g : Holder) (how : FillEnd) (h : airOwned s.pneu) : airOwned (endFill g how s).pneu := by
  have stopped : airOwned (s.modPneu fun p => { p with compressor := false, holder := none, parkNone := s.parksNowhere }).pneu :=
    h.noHolder _ _
  unfold endFill
  dsimp only
  split
  · exact airOwned_startVent (o := .relief g.seat) (by intro r e; cases e) stopped
  · exact stopped

theorem airOwned_orderSelector {s : State} (d : SelPos) (h : airOwned s.pneu) : airOwned (orderSelector d s).pneu := by
  rw [pneu_orderSelector]
  exact h

theorem airOwned_grantEntry {s : State} (e : Entry) (hc : choose s = some e) (h : airOwned s.pneu) :
    airOwned (grantEntry (.granted e) s).pneu := by
  refine ⟨fun a ha => h.1 a ((removeEntry_sublist _ _).subset ha), fun g hg => ?_, fun v hv => h.2.2 v ?_⟩
  · cases hg
    exact h.1 e (choose_mem hc).1
  · rw [← countGrant_vents s.rotationLimit e s.pneu]
    exact hv

theorem airOwned_takeP0 {s : State} (g : Holder) (hh : s.pneu.holder = some g) (h : airOwned s.pneu) :
    airOwned (takeP0 g s).pneu := ⟨h.1, fun k e => by cases e; exact h.2.1 g hh, h.2.2⟩

theorem ownedInOrder_passCore (s : State) (h : ownedInOrder s) : ownedInOrder (passCore s) := by
  rw [passCore_touches]
  exact h

theorem owned_arbiter : ArbiterKeep ownedInOrder where
  part s t e h := by cases s; cases t; cases e; exact h
  idlePass s _ := ownedInOrder_passCore s
  neutral s _ h := ownedInOrder_of_air (airOnly_orderSelector _ s) h (airOwned_orderSelector _ h.airOwned)
  grantMoving e s _ hc h :=
    ownedInOrder_of_air (.trans (airOnly_grantEntry _ s) (airOnly_orderSelector _ _)) h
      (airOwned_orderSelector _ (airOwned_grantEntry e hc h.airOwned))
  grantFilling e s _ hc _ _ h :=
    ownedInOrder_of_air (s := s) rfl h
      (airOwned_takeP0 (s := grantEntry (.granted e) s) _ rfl (airOwned_grantEntry e hc h.airOwned))
  grantEnded e _ s _ hc h :=
    ownedInOrder_of_air (.trans (.trans (airOnly_grantEntry _ s) (airOnly_takeP0 _ _)) (airOnly_endFill _ _ _)) h
      (airOwned_endFill _ _ (airOwned_takeP0 _ rfl (airOwned_grantEntry e hc h.airOwned)))

/-- A requested entry owns its cells where they are named. -/
theorem requestEntry_owns {r : Requester} {c : CellSet} (g : Nat) (hc : named True r c) : (requestEntry r c g).ownsCells :=
  hc trivial

theorem owned_atoms : AirAtoms True ownedInOrder ownedInOrder ownedInOrder where
  toArbiterKeep := owned_arbiter
  beforePass _ h := h
  pass := ownedInOrder_passCore
  peak _ _ _ h := h
  permit _ _ h := h
  refuse g s hh h := by
    obtain ⟨hq, hg, hv⟩ := h.airOwned
    refine ownedInOrder_of_air (s := s) rfl h ⟨?_, (by intro k e; cases e), hv⟩
    simpa [requeue] using ⟨hg g hh, hq⟩
  endFill g how s _ h := ownedInOrder_of_air (airOnly_endFill _ _ s) h (airOwned_endFill _ _ h.airOwned)
  replace r c g s hc _ h := by
    obtain ⟨hq, hg, hv⟩ := h.airOwned
    exact ownedInOrder_of_air (s := s) rfl h ⟨forall_replaceEntry _ _ (requestEntry_owns g hc) hq, hg, hv⟩
  rehold r c g s hc _ _ h := by
    obtain ⟨hq, -, hv⟩ := h.airOwned
    refine ownedInOrder_of_air (s := s) rfl h ⟨?_, (by intro k e; cases e), hv⟩
    simpa [requeue] using ⟨requestEntry_owns g hc, hq⟩
  append r c g s hc _ _ _ h := by
    obtain ⟨hq, hg, hv⟩ := h.airOwned
    refine ownedInOrder_of_air (s := s) rfl h ⟨fun e he => ?_, hg, hv⟩
    rcases List.mem_append.1 he with he | he
    · exact hq e he
    · rw [List.mem_singleton.1 he]
      exact requestEntry_owns g hc
  remove r s h := by
    obtain ⟨hq, hg, hv⟩ := h.airOwned
    exact ownedInOrder_of_air (s := s) rfl h ⟨fun e he => hq e ((removeEntry_sublist r _).subset he), hg, hv⟩
  vent r c s hc _ h :=
    ownedInOrder_of_air (s := s) rfl h (airOwned_startVent (by intro q e; cases e; exact hc trivial) h.airOwned)
  freedVent r c g s hc _ h := by
    have k : ownedInOrder (finishFill g .withdrawn s) :=
      owned_arbiter.release (endFill_holder _ _ _) (ownedInOrder_of_air (airOnly_endFill _ _ s) h (airOwned_endFill _ _ h.airOwned))
    exact ownedInOrder_of_air (s := finishFill g .withdrawn s) rfl k
      (airOwned_startVent (by intro q e; cases e; exact hc trivial) k.airOwned)
  dropVent o s h := by
    obtain ⟨hq, hg, hv⟩ := h.airOwned
    exact ownedInOrder_of_air (s := s) rfl h ⟨hq, hg, fun v k => hv v (List.mem_filter.1 k).1⟩
  sampleEnded l r g how s _ h :=
    ownedInOrder_of_air (.trans (airOnly_storeSamples l r s) (airOnly_endFill _ _ _)) h
      (airOwned_endFill (s := storeSamples l r s) _ _ h.airOwned)
  samples _ _ _ _ h := h
  arrived _ _ _ h := h
  arrivedEnded g how s hh h :=
    ownedInOrder_of_air (.trans (airOnly_takeP0 g s) (airOnly_endFill _ _ _)) h
      (airOwned_endFill _ _ (airOwned_takeP0 g hh h.airOwned))
  arrivedFilling g s hh _ _ _ h := ownedInOrder_of_air (s := s) rfl h (airOwned_takeP0 (s := s) g hh h.airOwned)

/-! ## Every step -/

/-- A record written in RAM, of the content given or of content that names massage cells. -/
theorem stepsMassage_putRam {s : State} (i : StepIndex) (r : RamRecord) (hs : s.stored)
    (hr : ∀ f, r.content = some f → massageOnly f) (h : s.stepsMassage) : (s.putRam i r).stepsMassage := by
  refine ⟨fun k f e => ?_, h.2⟩
  by_cases ek : k = i
  · subst ek
    rw [ramRecord_putRam s k r hs.1] at e
    exact hr f e
  · rw [ramRecord_putRam_other s i k r hs.1 ek] at e
    exact h.1 k f e

/-- The content of every record stands. -/
theorem stepsMassage_of_content {s t : State} (hc : ∀ i, (t.ramRecord i).content = (s.ramRecord i).content)
    (hx : t.cursors = s.cursors) (h : s.stepsMassage) : t.stepsMassage :=
  ⟨fun i f e => h.1 i f (by rw [← hc i]; exact e), fun x f e => h.2 x f (by unfold State.cursor at e ⊢; rw [← hx]; exact e)⟩

theorem ownedInOrder_readRecord (i : StepIndex) (s : State) (h : ownedInOrder s) : ownedInOrder (readRecord i s) := by
  have k := holdsContent_readRecord (content := fun j => (s.ramRecord j).content) i ⟨h.1, fun _ => rfl⟩
  refine ownedInOrder_of k.1 ?_ (stepsMassage_of_content (s := s) k.2 (by rw [readRecord_touches]) h.steps)
  rw [readRecord_touches]
  exact h.airOwned

theorem ownedInOrder_disturb (i : StepIndex) (s : State) (h : ownedInOrder s) : ownedInOrder (disturb i s) := by
  have k := (holdsContent_keep fun j => (s.ramRecord j).content).disturb i s ⟨h.1, fun _ => rfl⟩
  refine ownedInOrder_of k.1 ?_ (stepsMassage_of_content (s := s) k.2 ?_ h.steps)
  · unfold disturb
    split <;> exact h.airOwned
  · unfold disturb
    split <;> rfl

theorem ownedInOrder_modCursor (x : Seat) (g : Cursor → Cursor) (s : State)
    (hg : ∀ f, (g (s.cursor x)).copy = some f → (s.cursor x).copy = some f ∨ massageOnly f) (h : ownedInOrder s) :
    ownedInOrder (s.modCursor x g) := by
  refine ownedInOrder_of h.1 h.airOwned ⟨h.steps.1, fun y f e => ?_⟩
  by_cases ey : y = x
  · subst ey
    rw [State.cursor_modCursor] at e
    exact (hg f e).elim (h.steps.2 y f) id
  · rw [State.cursor_modCursor_other _ _ _ _ ey] at e
    exact h.steps.2 y f e

theorem airOwned_powerOn : airOwned Pneumatic.powerOn := ⟨by simp [Pneumatic.powerOn], (by intro h e; cases e), by simp [Pneumatic.powerOn]⟩

theorem stepsMassage_reset : State.reset.stepsMassage := by
  refine ⟨fun i f e => ?_, fun x f e => ?_⟩
  · cases e
  · cases x <;> cases e

theorem ownedInOrder_reset : ownedInOrder State.reset := ownedInOrder_of reset_stored airOwned_powerOn stepsMassage_reset

/-- RESET SEATS leaves the RESET vent alone. -/
theorem resetAir_vents (s : State) : ∃ n, (dropSeatNotices (resetPneumatic (clearSeats s))).pneu.vents = [⟨.reset, 0xFFFF, n⟩] := by
  show ∃ n, (resetPneumatic (clearSeats s)).pneu.vents = [⟨.reset, 0xFFFF, n⟩]
  unfold resetPneumatic
  dsimp only
  rw [pneu_orderSelector]
  exact ⟨_, rfl⟩

theorem ownedInOrder_resetAir (s : State) (h : ownedInOrder s) : ownedInOrder (dropSeatNotices (resetPneumatic (clearSeats s))) := by
  refine ownedInOrder_of (stored_resetAir s h.1) ?_ ⟨fun i f e => h.steps.1 i f ?_, fun x f e => ?_⟩
  · obtain ⟨hq, hh, -⟩ := resetAir_pneu s
    obtain ⟨n, hv⟩ := resetAir_vents s
    refine ⟨by rw [hq]; simp, (by rw [hh]; intro g e; cases e), ?_⟩
    rw [hv]
    intro v hv r e
    rw [List.mem_singleton.1 hv] at e
    cases e
  · obtain ⟨p, l, k⟩ := resetAir_touches s
    rw [k] at e
    exact e
  · obtain ⟨p, l, k⟩ := resetAir_touches s
    rw [k] at e
    cases x <;> cases e

theorem ownedInOrder_putParam (n v : Nat) (s : State) (hn : n ≤ 59) (h : ownedInOrder s) :
    ownedInOrder (s.putParam n (nearestAllowed (paramRange n) v)) := ownedInOrder_of (putParam_stored n v s hn h.1) h.airOwned h.steps

theorem ownedInOrder_loads : LoadsKeep ownedInOrder where

theorem ownedInOrder_later (s : State) (h : ownedInOrder s) : ownedInOrder s.later := by
  refine ownedInOrder_of h.1 ⟨h.airOwned.1, fun g e => ?_, fun v hv => ?_⟩ ⟨h.steps.1, fun x f e => h.steps.2 x f ?_⟩
  · obtain ⟨k, hk, rfl⟩ := Option.map_eq_some_iff.1 e
    exact h.airOwned.2.1 k hk
  · obtain ⟨w, hw, rfl⟩ := List.mem_map.1 hv
    exact h.airOwned.2.2 w hw
  · have copy (c : Cursor) : c.later.copy = c.copy := by
      unfold Cursor.later
      dsimp only
      repeat' split
      all_goals rfl
    have cur : (s.later.cursor x).copy = (s.cursor x).copy := by cases x <;> exact copy _
    rw [← cur]
    exact e

theorem owned_keep : StepKeep True ownedInOrder ownedInOrder where
  toAirKeep := owned_atoms.air
  riseOver g s hh h := ownedInOrder_of_air (s := s) rfl h
    ⟨h.airOwned.1, fun k e => by cases e; exact h.airOwned.2.1 g hh, h.airOwned.2.2⟩
  resetAir := ownedInOrder_resetAir
  copyOwned _ s x f h e := h.steps.2 x f e
  fetchOwned _ s i f h e := fetch_massageOnly h.steps e
  modCursor x g s hg h := ownedInOrder_modCursor x g s (hg trivial) h
  idleLoads := ownedInOrder_loads.idleLoads fun _ _ _ h => h
  emptySeat := ownedInOrder_loads.emptySeat (fun _ _ _ h => h)
    (fun x k s hk h => ownedInOrder_modCursor x k s (fun f e => .inl (hk _ ▸ e)) h) fun _ _ h => h
  readRecord := ownedInOrder_readRecord
  disturb := ownedInOrder_disturb
  putEntry n e s hlo hhi h := ownedInOrder_of (stored_keep.putEntry n e s hlo hhi h.1) h.airOwned h.steps
  putParam n v s hn _ _ h := ownedInOrder_putParam n v s hn h
  putShed v s h := ownedInOrder_putParam 44 v s (by decide) h
  putRotation v s h := ownedInOrder_putParam 52 v s (by decide) h
  putRam i r s hi hm h := ownedInOrder_of (stored_keep.putRam i r s hi hm h.1) h.airOwned (stepsMassage_putRam i r h.1 hm h.steps)
  powerOn _ _ _ _ _ := ownedInOrder_reset
  loseSupply _ := ownedInOrder_reset
  later := ownedInOrder_later

end Sys2Proof.Machine
end
section
/-! PROOFS. No cell in FILL under a running vent (spec/05 R89), kept by every step (O58, third part), and what reset meets (O60). -/
namespace Sys2Proof.Machine

/-! ## Cell sets -/

theorem and_eq_zero_iff (a b : CellSet) : a &&& b = 0 ↔ ∀ i, a.getLsbD i = true → b.getLsbD i = false := by
  constructor
  · intro h i ha
    have k := congrArg (fun c : CellSet => c.getLsbD i) h
    simpa [ha] using k
  · intro h
    refine BitVec.eq_of_getLsbD_eq fun i _ => ?_
    cases ha : a.getLsbD i with
    | false => simp [ha]
    | true => simp [ha, h i ha]

theorem or_and_eq_zero (a b c : CellSet) : (a ||| b) &&& c = 0 ↔ a &&& c = 0 ∧ b &&& c = 0 := by
  simp only [and_eq_zero_iff, BitVec.getLsbD_or, Bool.or_eq_true, or_imp, forall_and]

theorem overlap_false (a b : CellSet) : overlap a b = false ↔ a &&& b = 0 := by simp [overlap]

/-- Two requesters of one seat that differ own no cell together. -/
theorem ownCells_disjoint {r q : Requester} (hs : r.seat = q.seat) (hn : r ≠ q) {a b : CellSet} (ha : a &&& ~~~ownCells r = 0)
    (hb : b &&& ~~~ownCells q = 0) : a &&& b = 0 := by
  have apart : ∀ i, i < 16 → (0x0FFF : CellSet).getLsbD i = true → (0xF000 : CellSet).getLsbD i = true → False := by decide
  rw [and_eq_zero_iff] at ha hb ⊢
  intro i hi
  have lt : i < 16 := BitVec.lt_of_getLsbD hi
  cases hj : b.getLsbD i with
  | false => rfl
  | true =>
    have oa : (ownCells r).getLsbD i = true := by simpa [lt] using ha i hi
    have ob : (ownCells q).getLsbD i = true := by simpa [lt] using hb i hj
    rcases r with x | x <;> rcases q with y | y
    · exact absurd (congrArg Requester.massage hs) hn
    · exact (apart i lt oa ob).elim
    · exact (apart i lt ob oa).elim
    · exact absurd (congrArg Requester.support hs) hn

/-- The vented cells of a seat avoid a set exactly where each running vent that covers the seat does. -/
theorem ventedCells_and (l : List VentOp) (x : Seat) (c : CellSet) :
    ventedCells l x &&& c = 0 ↔ ∀ v ∈ l, v.owner.covers x = true → v.cells &&& c = 0 := by
  have step (acc : CellSet) : l.foldl (fun acc v => if v.owner.covers x then acc ||| v.cells else acc) acc &&& c = 0 ↔
      acc &&& c = 0 ∧ ∀ v ∈ l, v.owner.covers x = true → v.cells &&& c = 0 := by
    induction l generalizing acc with
    | nil => simp
    | cons v t ih =>
      rw [List.foldl_cons, ih]
      by_cases hv : v.owner.covers x = true
      · simp only [hv, if_true, or_and_eq_zero, and_assoc, List.forall_mem_cons, forall_const]
      · simp only [hv, if_false, List.forall_mem_cons, false_implies, true_and, Bool.false_eq_true]
  have zero : (0 : CellSet) &&& c = 0 := BitVec.zero_and
  exact (step 0).trans ⟨fun h => h.2, fun h => ⟨zero, h⟩⟩

/-! ## The law of the pneumatic controller -/

/-- Where the holder fills, no running vent of its seat covers its cells. -/
def airApart (p : Pneumatic) : Prop := ∀ h, p.holder = some h → h.p0.isSome = true →
  ∀ v ∈ p.vents, v.owner.covers h.seat = true → v.cells &&& h.entry.cells = 0

theorem valvesApart_iff (s : State) : s.valvesApart ↔ airApart s.pneu := by
  unfold State.valvesApart airApart filledCells
  cases hh : s.pneu.holder with
  | none => simp
  | some h =>
    cases hp : h.p0.isSome with
    | false => simp [hp]
    | true =>
      simp only [hp, Bool.true_and, beq_iff_eq, Option.some.injEq]
      constructor
      · intro k g e _
        cases e
        have := k h.seat
        rw [if_pos rfl, BitVec.and_comm] at this
        exact (ventedCells_and _ _ _).1 this
      · intro k x
        split
        · rename_i e
          subst e
          rw [BitVec.and_comm]
          exact (ventedCells_and _ _ _).2 (k h rfl hp)
        · exact BitVec.zero_and

theorem airApart_of_none {p : Pneumatic} (h : p.holder = none) : airApart p := by
  intro g e
  rw [h] at e
  cases e

theorem airApart_of_switching {p : Pneumatic} {g : Holder} (h : p.holder = some g) (hp : g.p0 = none) : airApart p := by
  intro k e hk
  cases h.symm.trans e
  rw [hp] at hk
  cases hk

/-- FILLING may begin over the cells of an eligible entry (spec/05 R96). -/
theorem airApart_of_eligible {p : Pneumatic} {g : Holder} (h : p.holder = some g) (e : eligible p g.entry = true) : airApart p := by
  intro k hk _ v hv hc
  cases h.symm.trans hk
  have free : overlap (ventedCells p.vents g.entry.requester.seat) g.entry.cells = false := by simpa [eligible] using e
  exact (ventedCells_and _ _ _).1 ((overlap_false _ _).1 free) v hv hc

theorem valvesApart_endFill (h : Holder) (how : FillEnd) (s : State) : (endFill h how s).valvesApart :=
  (valvesApart_iff _).2 (airApart_of_none (endFill_holder h how s))

theorem holder_orderSelector (d : SelPos) (s : State) : (orderSelector d s).pneu.holder = s.pneu.holder := by
  rw [pneu_orderSelector]

theorem eligible_of_vents {p q : Pneumatic} {e : Entry} (h : q.vents = p.vents) : eligible q e = eligible p e := by
  unfold eligible
  rw [h]

theorem valves_arbiter : ArbiterKeep State.valvesApart where
  part s t e h := by cases s; cases t; cases e; exact h
  idlePass s hn _ := (valvesApart_iff _).2 (airApart_of_none (by rw [passCore_pneu]; exact hn))
  neutral s hn _ := (valvesApart_iff _).2 (airApart_of_none (by rw [holder_orderSelector]; exact hn))
  grantMoving e s _ _ _ := (valvesApart_iff _).2
    (airApart_of_switching (g := .granted e) (by rw [holder_orderSelector]; rfl) rfl)
  grantFilling e s _ hc _ _ _ := (valvesApart_iff _).2 (airApart_of_eligible rfl
    ((eligible_of_vents (countGrant_vents s.rotationLimit e s.pneu)).trans (choose_mem hc).2))
  grantEnded _ _ _ _ _ _ := valvesApart_endFill _ _ _

/-- A vent may start where it reaches no fill in progress. -/
theorem airApart_startVent {o : VentOwner} {c : CellSet} {s : State}
    (hc : ∀ h, s.pneu.holder = some h → h.p0.isSome = true → o.covers h.seat = true → c &&& h.entry.cells = 0)
    (k : airApart s.pneu) : airApart (startVent o c s).pneu := by
  intro h hh hp v hv hcov
  rcases mem_startVent hv with rfl | hv
  · exact hc h hh hp hcov
  · exact k h hh hp v hv hcov

/-! ## A requester that neither waits nor holds -/

/-- The requester has no entry and no grant. -/
def State.absent (r : Requester) (s : State) : Prop :=
  (∀ e ∈ s.pneu.queue, e.requester ≠ r) ∧ ∀ h, s.pneu.holder = some h → h.entry.requester ≠ r

/-- A selection grants none but who waits. -/
theorem absent_arbiter (r : Requester) : ArbiterKeep (State.absent r) where
  part s t e h := by cases s; cases t; cases e; exact h
  idlePass s _ h := by
    unfold State.absent
    rw [passCore_pneu]
    exact h
  neutral s _ h := by
    unfold State.absent
    rw [pneu_orderSelector]
    exact h
  grantMoving e s _ hc h := by
    unfold State.absent
    rw [pneu_orderSelector]
    exact ⟨fun a ha => h.1 a ((removeEntry_sublist _ _).subset ha), fun g hg => by cases hg; exact h.1 e (choose_mem hc).1⟩
  grantFilling e s _ hc _ _ h :=
    ⟨fun a ha => h.1 a ((removeEntry_sublist _ _).subset ha), fun g hg => by cases hg; exact h.1 e (choose_mem hc).1⟩
  grantEnded e how s _ hc h := by
    unfold State.absent
    rw [pneu_endFill]
    exact ⟨fun a ha => h.1 a ((removeEntry_sublist _ _).subset ha), by intro g hg; cases hg⟩

/-- A holder whose fill ends with its request neither waiting is absent after the release. -/
theorem absent_finishFill (h : Holder) (how : FillEnd) (s : State) (hh : s.pneu.holder = some h) (k : queueInOrder s) :
    (finishFill h how s).absent h.entry.requester := by
  refine (absent_arbiter _).release (endFill_holder _ _ _) ⟨?_, ?_⟩
  · rw [pneu_endFill]
    exact (k.airOk.1.2.2 h hh).2
  · rw [endFill_holder]
    intro g e
    cases e

/-! ## The laws together -/

/-- The store and the queue in order, each requester with its own cells, and no cell's two valves open together. -/
abbrev valvesInOrder (s : State) : Prop := ownedInOrder s ∧ s.queueLaws ∧ s.valvesApart

theorem valvesInOrder.queue {s : State} (h : valvesInOrder s) : queueInOrder s := ⟨h.1.1, h.2.1⟩

theorem valvesInOrder.apart {s : State} (h : valvesInOrder s) : airApart s.pneu := (valvesApart_iff s).1 h.2.2

theorem valvesInOrder_of {s : State} (ho : ownedInOrder s) (hq : queueInOrder s) (ha : s.valvesApart) : valvesInOrder s :=
  ⟨ho, hq.2, ha⟩

theorem laws_arbiter : ArbiterKeep valvesInOrder where
  part s t e h := by cases s; cases t; cases e; exact h
  idlePass s hn h := valvesInOrder_of (owned_arbiter.idlePass s hn h.1) (queue_arbiter.idlePass s hn h.queue)
    (valves_arbiter.idlePass s hn h.2.2)
  neutral s hn h := valvesInOrder_of (owned_arbiter.neutral s hn h.1) (queue_arbiter.neutral s hn h.queue)
    (valves_arbiter.neutral s hn h.2.2)
  grantMoving e s hm hc h := valvesInOrder_of (owned_arbiter.grantMoving e s hm hc h.1)
    (queue_arbiter.grantMoving e s hm hc h.queue) (valves_arbiter.grantMoving e s hm hc h.2.2)
  grantFilling e s hm hc hs hp h := valvesInOrder_of (owned_arbiter.grantFilling e s hm hc hs hp h.1)
    (queue_arbiter.grantFilling e s hm hc hs hp h.queue) (valves_arbiter.grantFilling e s hm hc hs hp h.2.2)
  grantEnded e how s hm hc h := valvesInOrder_of (owned_arbiter.grantEnded e how s hm hc h.1)
    (queue_arbiter.grantEnded e how s hm hc h.queue) (valves_arbiter.grantEnded e how s hm hc h.2.2)

/-- The vent of a requester whose fill it has ended: the cells of a fill that the release begins are another requester's. -/
theorem laws_freedVent (r : Requester) (c : CellSet) (g : Holder) (s : State) (hc : named True r c)
    (hr : reachesFill (.requester r) c s.pneu = some g) (h : valvesInOrder s) :
    valvesInOrder (startVent (.requester r) c (finishFill g .withdrawn s)) := by
  obtain ⟨hh, -, hcov, hov⟩ := reachesFill_some hr
  have seat : r.seat = g.entry.requester.seat := by simpa [VentOwner.covers, Holder.seat] using hcov
  have same : g.entry.requester = r := by
    refine Classical.byContradiction fun n => ?_
    have apart := ownCells_disjoint seat (Ne.symm n) (hc trivial) (h.1.airOwned.2.1 g hh)
    rw [(overlap_false _ _).2 apart] at hov
    cases hov
  have gone : (finishFill g .withdrawn s).absent r := same ▸ absent_finishFill g _ s hh h.queue
  have k : valvesInOrder (finishFill g .withdrawn s) := laws_arbiter.release (endFill_holder _ _ _)
    (valvesInOrder_of (owned_atoms.endFill g _ s hh h.1) ((queue_atoms True).endFill g _ s hh h.queue) (valvesApart_endFill _ _ _))
  refine valvesInOrder_of (owned_atoms.freedVent r c g s hc hr h.1) ((queue_atoms True).freedVent r c g s hc hr h.queue)
    ((valvesApart_iff _).2 (airApart_startVent (fun q hq _ hcov => ?_) k.apart))
  have seat' : r.seat = q.entry.requester.seat := by simpa [VentOwner.covers, Holder.seat] using hcov
  exact ownCells_disjoint seat' (Ne.symm (gone.2 q hq)) (hc trivial) (k.1.airOwned.2.1 q hq)

theorem laws_atoms : AirAtoms True valvesInOrder valvesInOrder valvesInOrder where
  toArbiterKeep := laws_arbiter
  beforePass _ h := h
  pass s h := valvesInOrder_of (owned_atoms.pass s h.1) ((queue_atoms True).pass s h.queue) (by
    rw [valvesApart_iff, passCore_pneu]
    exact h.apart)
  peak _ _ _ h := h
  permit _ _ h := h
  refuse g s hh h := valvesInOrder_of (owned_atoms.refuse g s hh h.1) ((queue_atoms True).refuse g s hh h.queue)
    ((valvesApart_iff _).2 (airApart_of_none rfl))
  endFill g how s hh h := valvesInOrder_of (owned_atoms.endFill g how s hh h.1) ((queue_atoms True).endFill g how s hh h.queue)
    (valvesApart_endFill _ _ _)
  replace r c g s hc h0 h := valvesInOrder_of (owned_atoms.replace r c g s hc h0 h.1)
    ((queue_atoms True).replace r c g s hc h0 h.queue) h.2.2
  rehold r c g s hc h0 hq h := valvesInOrder_of (owned_atoms.rehold r c g s hc h0 hq h.1)
    ((queue_atoms True).rehold r c g s hc h0 hq h.queue) ((valvesApart_iff _).2 (airApart_of_none rfl))
  append r c g s hc h0 hq hh h := valvesInOrder_of (owned_atoms.append r c g s hc h0 hq hh h.1)
    ((queue_atoms True).append r c g s hc h0 hq hh h.queue) h.2.2
  remove r s h := valvesInOrder_of (owned_atoms.remove r s h.1) ((queue_atoms True).remove r s h.queue) h.2.2
  vent r c s hc hr h := valvesInOrder_of (owned_atoms.vent r c s hc hr h.1) ((queue_atoms True).vent r c s hc hr h.queue)
    ((valvesApart_iff _).2 (airApart_startVent
      (fun g hg hp hcov => (overlap_false _ _).1 (reachesFill_none hr hg hp hcov)) h.apart))
  freedVent := laws_freedVent
  dropVent o s h := valvesInOrder_of (owned_atoms.dropVent o s h.1) ((queue_atoms True).dropVent o s h.queue)
    ((valvesApart_iff _).2 fun g hg hp v hv => h.apart g hg hp v (List.mem_filter.1 hv).1)
  sampleEnded l r g how s hh h := valvesInOrder_of (owned_atoms.sampleEnded l r g how s hh h.1)
    ((queue_atoms True).sampleEnded l r g how s hh h.queue) (valvesApart_endFill _ _ _)
  samples _ _ _ _ h := h
  arrived _ _ _ h := h
  arrivedEnded g how s hh h := valvesInOrder_of (owned_atoms.arrivedEnded g how s hh h.1)
    ((queue_atoms True).arrivedEnded g how s hh h.queue) (valvesApart_endFill _ _ _)
  arrivedFilling g s hh hs he hc h := valvesInOrder_of (owned_atoms.arrivedFilling g s hh hs he hc h.1)
    ((queue_atoms True).arrivedFilling g s hh hs he hc h.queue) ((valvesApart_iff _).2 (airApart_of_eligible rfl he))

theorem valvesInOrder_reset : valvesInOrder State.reset :=
  valvesInOrder_of ownedInOrder_reset reset_queueInOrder ((valvesApart_iff _).2 (airApart_of_none rfl))

theorem valvesInOrder_loads : LoadsKeep valvesInOrder where

/-- The laws of the queue, without what a law about cells asks of the copies. -/
theorem queue_keep : StepKeep False queueInOrder queueInOrder := queueInOrder_keep False id

theorem laws_keep : StepKeep True valvesInOrder valvesInOrder where
  toAirKeep := laws_atoms.air
  riseOver g s hh h := valvesInOrder_of (owned_keep.riseOver g s hh h.1) (queue_keep.riseOver g s hh h.queue)
    ((valvesApart_iff _).2 fun k e hp => by cases e; exact h.apart g hh hp)
  resetAir s h := valvesInOrder_of (owned_keep.resetAir s h.1) (queue_keep.resetAir s h.queue)
    ((valvesApart_iff _).2 (airApart_of_none (resetAir_pneu s).2.1))
  copyOwned t s x f h := owned_keep.copyOwned t s x f h.1
  fetchOwned t s i f h := owned_keep.fetchOwned t s i f h.1
  modCursor x g s hg h := valvesInOrder_of (owned_keep.modCursor x g s hg h.1) h.queue h.2.2
  idleLoads := valvesInOrder_loads.idleLoads fun _ _ _ h => h
  emptySeat := valvesInOrder_loads.emptySeat (fun _ _ _ h => h)
    (fun x k s hk h => valvesInOrder_of (ownedInOrder_modCursor x k s (fun f e => .inl (hk _ ▸ e)) h.1) h.queue h.2.2) fun _ _ h => h
  readRecord i s h := valvesInOrder_of (owned_keep.readRecord i s h.1) (queue_keep.readRecord i s h.queue)
    (by rw [readRecord_touches]; exact h.2.2)
  disturb i s h := valvesInOrder_of (owned_keep.disturb i s h.1) (queue_keep.disturb i s h.queue)
    (by unfold disturb; split <;> exact h.2.2)
  putEntry n e s hlo hhi h := valvesInOrder_of (owned_keep.putEntry n e s hlo hhi h.1) (queue_keep.putEntry n e s hlo hhi h.queue)
    h.2.2
  putParam n v s hn h44 h52 h := valvesInOrder_of (owned_keep.putParam n v s hn h44 h52 h.1)
    (queue_keep.putParam n v s hn h44 h52 h.queue) h.2.2
  putShed v s h := valvesInOrder_of (owned_keep.putShed v s h.1) (queue_keep.putShed v s h.queue) h.2.2
  putRotation v s h := valvesInOrder_of (owned_keep.putRotation v s h.1) (queue_keep.putRotation v s h.queue) h.2.2
  putRam i r s hi hm h := valvesInOrder_of (owned_keep.putRam i r s hi hm h.1) (queue_keep.putRam i r s hi hm h.queue) h.2.2
  powerOn _ _ _ _ _ := valvesInOrder_reset
  loseSupply _ := valvesInOrder_reset
  later s h := valvesInOrder_of (owned_keep.later s h.1) (queue_keep.later s h.queue)
    ((valvesApart_iff _).2 fun g e hp v hv hc => by
      obtain ⟨k, hk, rfl⟩ := Option.map_eq_some_iff.1 e
      obtain ⟨w, hw, rfl⟩ := List.mem_map.1 hv
      exact h.apart k hk hp w hw hc)

/-- Settles O58: the compressor's law alone, the cells of each requester with the store in order, and from both with the queue in
order the cell valves. -/
theorem stepKeepsCompressorAndValveLaws : Obligations.StepKeepsCompressorAndValveLaws :=
  ⟨fun _ _ => compressor_keep.step_inEither, fun _ _ => owned_keep.step_inEither, fun _ _ => laws_keep.step_inEither⟩

/-- Settles O60: reset by the lemma that each invariant's preservation uses for the loss of the supply. -/
theorem resetMeetsInvariants : Obligations.ResetMeetsInvariants := by
  obtain ⟨sound, placed⟩ := (boxes_inOrder _).1 boxInOrder_keep.reset
  exact ⟨reset_stored, sound, placed, rfl, idle_keep.reset, within_keep.reset, fun _ => by decide, reset_queueInOrder.2,
    compressorLaw_of_rest rfl rfl, ownedInOrder_reset.2, valvesInOrder_reset.2.2, rfl, Nat.zero_le 35, rfl⟩

end Sys2Proof.Machine
end
section
/-! PROOFS. The machine, the clock, the supply's loss and return, and the bus interface's events (O1 to O5, O8, O11). -/
namespace Sys2Proof.Machine

/-! ## The machine -/

/-- Settles O1. -/
theorem stepTakesFrontCommand : Obligations.StepTakesFrontCommand := by
  intro c rest s h
  unfold step
  rw [h]

/-- A step of an idle part is the passing of a millisecond. -/
theorem step_idle {s : State} (h : s.pending = []) : step s = .next (tick s) := by
  unfold step
  rw [h]

/-- The zone counts toward step-down: a level of 4 or 5, a state that heats, and a step-down time (spec/02 R40). -/
theorem countsDown_iff (s : State) (z : ZoneId) : countsDown s z = true ↔ ((s.level z).value = 4 ∨ (s.level z).value = 5) ∧
    ((s.zone z).state = .heating ∨ (s.zone z).state = .limit ∨ (s.zone z).state = .degraded) ∧ 0 < s.stepDownTime := by
  have heats (st : ZoneState) : st.heats = true ↔ st = .heating ∨ st = .limit ∨ st = .degraded := by cases st <;> simp [ZoneState.heats]
  simp [countsDown, highLevel, heats, and_assoc]

theorem zone_later_eq (s : State) (z : ZoneId) : s.later.zone z = zoneLater s (decide (10 ≤ s.frameMs + 1)) z := by
  obtain ⟨x, p⟩ := z
  cases x <;> cases p <;> rfl

/-- A zone's millisecond: the minute, where the zone counts, and the slot, where one ends. -/
theorem zoneLater_eq (s : State) (slot : Bool) (z : ZoneId) : zoneLater s slot z = { s.zone z with
    minuteMs := if countsDown s z then (if (s.zone z).minuteMs + 1 < 60000 then (s.zone z).minuteMs + 1 else 0) else (s.zone z).minuteMs
    minutes := if countsDown s z ∧ 60000 ≤ (s.zone z).minuteMs + 1 then min s.stepDownTime ((s.zone z).minutes + 1)
      else (s.zone z).minutes
    onSlots := if slot = true ∧ (s.zone z).gate = true then min (s.zone z).window ((s.zone z).onSlots + 1)
      else (s.zone z).onSlots } := by
  have counted : (if countsDown s z then countMinute s.stepDownTime (s.zone z) else s.zone z) = { s.zone z with
      minuteMs := if countsDown s z then (if (s.zone z).minuteMs + 1 < 60000 then (s.zone z).minuteMs + 1 else 0)
        else (s.zone z).minuteMs
      minutes := if countsDown s z ∧ 60000 ≤ (s.zone z).minuteMs + 1 then min s.stepDownTime ((s.zone z).minutes + 1)
        else (s.zone z).minutes } := by
    unfold countMinute
    by_cases hc : countsDown s z = true
    · by_cases hm : (s.zone z).minuteMs + 1 < 60000
      · simp [hc, hm, Nat.not_le_of_lt hm]
      · simp [hc, hm, Nat.le_of_not_lt hm]
    · simp [hc]
  unfold zoneLater
  dsimp only
  rw [counted]
  cases slot with
  | false => simp
  | true =>
    unfold ZoneChannel.slotOver
    cases hg : (s.zone z).gate <;> simp [hg]

theorem cursor_later_eq (s : State) (x : Seat) : s.later.cursor x = (s.cursor x).later := by cases x <;> rfl

theorem regulator_later_eq (s : State) (x : Seat) : s.later.regulator x = (s.regulator x).later := by cases x <;> rfl

theorem seat_later_eq (s : State) (x : Seat) : s.later.seat x = (s.seat x).later := by cases x <;> rfl

/-- Settles O2: record by record, what the clock moves. -/
theorem idleStepPassesMillisecond : Obligations.IdleStepPassesMillisecond := by
  refine ⟨fun s hp hw => ?_, fun s hp hw => ⟨s.later, ?_, ?_, rfl, fun x => ?_, fun z => ?_, fun f => ?_, rfl, fun x hx => ?_,
    fun x hx => ?_, fun x => ?_⟩⟩
  · simp [step_idle hp, tick, hw]
  · simp [step_idle hp, tick, hw]
  · unfold State.later
    by_cases h : s.frameMs + 1 < 10
    · have : ¬ 10 ≤ s.frameMs + 1 := by omega
      simp only [h, this, decide_false, if_true, if_false, Bool.false_eq_true]
      rfl
    · have : 10 ≤ s.frameMs + 1 := by omega
      simp only [h, this, decide_true, if_true, if_false]
      rfl
  · rw [seat_later_eq]
    unfold SeatRecord.later OccTimer.later
    rfl
  · rw [zone_later_eq, zoneLater_eq]
    simp only [countsDown_iff, decide_eq_true_eq]
  · rw [ChannelKeep.fan_later]
    rfl
  · rw [cursor_later_eq]
    unfold Cursor.later
    rw [if_neg hx]
  · rw [cursor_later_eq]
    unfold Cursor.later
    rw [if_pos hx]
    dsimp only
    split <;> rfl
  · rw [regulator_later_eq]
    rfl

/-! ## Power -/

/-- Settles O3: each register of the reset state by its value. -/
theorem resetHoldsPowerOnValues : Obligations.ResetHoldsPowerOnValues := by
  refine ⟨fun x => ?_, fun z => ?_, fun f => ?_, fun x c => ?_, fun x => ?_, fun i => rfl, rfl, rfl, rfl, rfl, rfl, rfl, rfl, rfl,
    rfl, rfl, rfl, rfl, fun x => ?_, rfl, rfl, fun m => ?_, fun m => ?_, rfl, rfl, rfl, rfl⟩
  · cases x <;> exact ⟨rfl, rfl, rfl, rfl, rfl⟩
  · obtain ⟨x, p⟩ := z
    cases x <;> cases p <;> exact ⟨rfl, rfl, rfl, rfl, rfl, rfl, rfl, rfl⟩
  · obtain ⟨x, p⟩ := f
    cases x <;> cases p <;> exact ⟨rfl, rfl⟩
  · cases x <;> cases c <;> exact ⟨rfl, rfl, rfl⟩
  · cases x <;> exact ⟨rfl, rfl, rfl, rfl⟩
  · cases x <;> rfl
  · cases m <;> rfl
  · cases m <;> rfl

/-- Settles O5: a command of a part without supply is not taken. -/
theorem lossOfSupplyErases : Obligations.LossOfSupplyErases := by
  refine ⟨fun s => rfl, fun v s h hv => ?_, fun c s h hp hl => ?_⟩
  · show taken (sampleSupply v) s = _
    have e : sampleSupply v s = loseSupply s := if_pos hv
    rw [taken_quiet _ s h (by rw [e]; rfl) (by rw [e]; rfl), e]
    rfl
  · rw [exec_eq_taken c s hp hl]
    exact taken_unpowered _ s h

/-! ## The bus interface -/

/-- A command that touches the bus record alone. -/
theorem taken_bus (f : State → State) (s : State) (b : BusRecord) (h : s.awake) (e : f s = { s with bus := b }) :
    taken f s = .next { s with bus := b } := by
  rw [taken_quiet f s h (by rw [e]; exact h.2.1) (by rw [e]; exact h.2.2), e]

/-- An address that the part takes is the address byte of its master and direction. -/
theorem eq_addressByte_of_addressed (ads : BitVec 2) (a : Byte) (m : Master) (d : Bool) (h : addressed ads a = some (m, d)) :
    a = addressByte ads m d := by
  have parts (k : Nat) (e : a.toNat / 2 = k) : a = byteOf (2 * k + if (a.toNat % 2 == 1) = true then 1 else 0) := by
    have bit : (if (a.toNat % 2 == 1) = true then 1 else 0) = a.toNat % 2 := by
      rcases Nat.mod_two_eq_zero_or_one a.toNat with e | e <;> simp [e]
    rw [bit, ← e]
    refine BitVec.eq_of_toNat_eq ?_
    simp only [byteOf, BitVec.toNat_ofNat]
    omega
  unfold addressed at h
  dsimp only at h
  split at h
  · cases h
    exact parts _ (by assumption)
  · split at h
    · cases h
      exact parts _ (by assumption)
    · split at h
      · cases h
        exact parts _ (by assumption)
      · cases h

theorem addressed_none (ads : BitVec 2) (a : Byte) (h : ∀ m d, a ≠ addressByte ads m d) : addressed ads a = none := by
  cases e : addressed ads a with
  | none => rfl
  | some p => exact absurd (eq_addressByte_of_addressed ads a p.1 p.2 e) (h _ _)

/-- A START where the addresses are acknowledged. -/
theorem startTransaction_scanned {s : State} (a : Byte) (h : s.scanned = true) : startTransaction a s =
    match addressed s.ads a with
    | some (m, false) => beginFrame m 0 s.passedOver
    | some (m, true) => respond m (answerReadResult m s.passedOver)
    | none => s.passedOver := if_pos h

/-- Settles O8: a START by the kind of its address, a byte by the phase and the room left. -/
theorem startOpensAndFrameByteIsKept : Obligations.StartOpensAndFrameByteIsKept := by
  refine ⟨fun m s h => ?_, fun m s h => ?_, fun a s h ha => ?_, fun a s h hs => ?_, fun b s h => ⟨fun hp hl => ?_, fun hp hl => ?_,
    fun hp => ?_⟩⟩
  · refine taken_bus _ s _ h.1 ?_
    rw [startTransaction_scanned _ h.2, addressed_addressByte]
    rfl
  · refine taken_bus _ s _ h.1 ?_
    rw [startTransaction_scanned _ h.2, addressed_addressByte]
    rfl
  · refine taken_bus _ s _ h.1 ?_
    rw [startTransaction_scanned _ h.2, addressed_none _ _ ha]
    rfl
  · exact taken_bus _ s _ h (if_neg (by simp [hs]))
  · refine taken_bus _ s _ h ?_
    simp only [receiveByte, hp, BusRecord.keepByte, hl, if_true]
    rfl
  · refine taken_bus _ s _ h ?_
    simp only [receiveByte, hp, BusRecord.keepByte, Nat.not_lt.2 hl, if_false]
    rfl
  · refine taken_bus _ s _ h ?_
    unfold receiveByte
    cases e : s.bus.phase with
    | receiving => exact absurd e hp
    | idle => rfl
    | sending => rfl

/-- Settles O11: the byte by what is left of the response, each timeout by its own time. -/
theorem responseBytesAndTimeouts : Obligations.ResponseBytesAndTimeouts := by
  refine ⟨fun a s h hp hr hl => ?_, fun a s h hp hr hl => ?_, fun a s h hp hr => ?_, fun a s h hp => ?_, fun s h ht => ?_,
    fun s h ht => ?_, fun s h hp => ?_, fun s h hl => ?_, fun l s h hp hl ht => ?_⟩
  · refine taken_bus _ s _ h ?_
    have next : min s.bus.response.length (s.bus.sent + 1) = s.bus.sent + 1 := by omega
    simp [clockByte, hp, BusRecord.sendByte, hr, hl, next, State.freshLow]
  · refine taken_bus _ s _ h ?_
    simp [clockByte, hp, BusRecord.sendByte, hr, hl, State.freshLow]
  · refine taken_bus _ s _ h ?_
    simp [clockByte, hp, BusRecord.sendByte, hr, State.freshLow]
  · refine taken_bus _ s _ h ?_
    unfold clockByte
    cases e : s.bus.phase with
    | sending => exact absurd e hp
    | idle => rfl
    | receiving => rfl
  · exact taken_bus _ s _ h (if_pos ht)
  · exact taken_bus _ s s.bus h (if_neg (Nat.not_le_of_lt ht))
  · exact taken_bus _ s s.bus h (if_neg (by simp [hp]))
  · refine taken_bus _ s s.bus h (if_neg ?_)
    simp only [Bool.and_eq_true, not_and, lowOver_iff]
    rintro ⟨l, e, k⟩
    exact absurd k (Nat.not_le_of_lt (hl l e))
  · have out : s.bus.lowOver = true := (lowOver_iff _).2 ⟨l, hl, ht⟩
    refine taken_bus _ s _ h ?_
    simp [expireBusLow, out, hp, resetInterface, hl]

end Sys2Proof.Machine
end
section
/-! PROOFS. The power-on pass, the control law, and the frames on the wire (O4, O6, O7, O9, O10, O14). -/
namespace Sys2Proof.Machine

/-! ## Power-on -/

/-- The inputs of the power-on pass: nothing asks. -/
def powerOnInput (c : Nat) : PassInput :=
  { cEff := c, overhead := 8, pump := 75, demand := false, fans := .both ⟨0, 0⟩, fanI1 := 4, fanI2 := 7, fanI3 := 11
    rated := .both ⟨45, 45, 15, 30, 10⟩, requests := .both (Five.all 0) }

/-- C_eff at power-on, by the band of the first sample. -/
def powerOnCeiling : Band → Nat
  | .stop => 0
  | .shed => 60
  | .normal => 120

theorem passInput_poweredUp (ads : BitVec 2) (l r : Bool) (v : Nat) (s : State) :
    (poweredUp ads l r v s).passInput = powerOnInput (powerOnCeiling (classifyFirst v)) := by
  have c : (poweredUp ads l r v s).budget.cEff = powerOnCeiling (classifyFirst v) := by
    show (poweredUp ads l r v s).effectiveCeiling = _
    unfold State.effectiveCeiling State.bandCap
    show min 120 (match classifyFirst v with | .normal => 600 | .shed => 60 | .stop => 0) - 0 = _
    cases classifyFirst v <;> rfl
  unfold State.passInput
  rw [c]
  rfl

/-- With nothing asked for, the pass is FULL above the overhead and STARVED at or below it. -/
theorem allocate_powerOnInput (b : Band) : allocate (powerOnInput (powerOnCeiling b)) = match b with
    | .stop => { status := .starved, demandSeen := false, permitted := false, fanCap := 0, fanGrants := .both ⟨0, 0⟩,
                 dutyCap := 0, grants := .both (Five.all 0), heater := 0, total := 8 }
    | .shed | .normal => { status := .full, demandSeen := false, permitted := false, fanCap := 3, fanGrants := .both ⟨0, 0⟩,
                           dutyCap := 100, grants := .both (Five.all 0), heater := 0, total := 8 } := by
  cases b <;> decide

theorem total_powerOn (b : Band) : (allocate (powerOnInput (powerOnCeiling b))).total = 8 := by
  rw [allocate_powerOnInput]
  cases b <;> rfl

/-- The hand-off of the power-on pass changes nothing: every load is off. -/
theorem handOff_powerOn (b : Band) (u : State) (hz : u.zones = State.reset.zones) (hf : u.fans = State.reset.fans) :
    handOff (allocate (powerOnInput (powerOnCeiling b))) u = u := by
  have same : handOff (allocate (powerOnInput (powerOnCeiling b))) u =
      { u with zones := State.reset.zones, fans := State.reset.fans } := by
    rw [allocate_powerOnInput]
    unfold handOff
    rw [hz, hf]
    cases b <;> rfl
  rw [same, ← hz, ← hf]

/-- The power-on values in a band, with the pass they lead to. -/
theorem powerOnPass_poweredUp (ads : BitVec 2) (l r : Bool) (v : Nat) (s : State) : powerOnPass (poweredUp ads l r v s) =
    { State.reset with
      ads := ads
      seats := ⟨.powerOn l, .powerOn r⟩
      supply := { State.reset.supply with band := classifyFirst v, reading := min 255 v }
      budget := { State.reset.budget with
        cEff := powerOnCeiling (classifyFirst v), result := allocate (powerOnInput (powerOnCeiling (classifyFirst v))) }
      pending := s.pending } := by
  have c : (poweredUp ads l r v s).budget.cEff = powerOnCeiling (classifyFirst v) := by
    rw [← show (poweredUp ads l r v s).passInput.cEff = (poweredUp ads l r v s).budget.cEff from rfl, passInput_poweredUp]
    rfl
  have budget : (poweredUp ads l r v s).budget = { State.reset.budget with cEff := powerOnCeiling (classifyFirst v) } := by
    rw [← c]
    rfl
  unfold powerOnPass
  dsimp only
  rw [passInput_poweredUp, handOff_powerOn _ ((poweredUp ads l r v s).modBudget _) rfl rfl]
  unfold State.modBudget
  rw [budget]
  dsimp only
  rw [total_powerOn]
  rfl

/-- Settles O4. -/
theorem powerOnIsExact : Obligations.PowerOnIsExact := by
  intro ads l r v s hv
  show Host.Outcome.next (powerUp ads l r v s) = _
  rw [powerUp, if_neg (by omega), powerOnPass_poweredUp, allocate_powerOnInput]
  unfold classifyFirst
  by_cases h1 : v < 95
  · simp only [h1, if_true, powerOnCeiling]
  · by_cases h2 : v < 115
    · simp only [h1, h2, if_true, if_false, powerOnCeiling]
    · simp only [h1, h2, if_false, powerOnCeiling]

/-! ## The control law -/

/-- The base duty with the gain term, held to 0 to 100, on integers. -/
theorem heldDuty_eq (x : Int) : ((max 0 (min x 100)).toNat : Int) = max 0 (min 100 x) := by omega

/-- Settles O14. -/
theorem controlLawIsTheManuals : Obligations.ControlLawIsTheManuals := by
  intro target base gain limitDuty limit m
  have floor : Int.fdiv ((gain : Int) * (target - m)) 10 = (gain * (target - m)) / 10 := Int.fdiv_eq_ediv_of_nonneg _ (by decide)
  refine ⟨fun h => ?_, fun h k => ?_, fun h => ?_⟩
  · unfold controlLaw
    rw [if_pos h]
  · have law : controlLaw target base gain limitDuty limit m = _ := (if_neg (by omega)).trans (if_pos k)
    rw [law]
    refine ⟨rfl, ?_⟩
    dsimp only
    rw [floor]
    omega
  · have law : controlLaw target base gain limitDuty limit m = _ := (if_neg (by omega)).trans (if_neg (by omega))
    rw [law]
    refine ⟨rfl, ?_⟩
    dsimp only
    rw [floor, heldDuty_eq]

end Sys2Proof.Machine
end
section
/-! PROOFS. The judgement of a frame, and what a STOP and a repeated START do with it (O9, O10). -/
namespace Sys2Proof.Machine

/-! ## The judgement of a frame (spec/09 R171) -/

/-- The frame does not have the length that it says, or a byte of it is lost. -/
abbrev frameMisfit (bytes : List Byte) (overflow : Bool) : Prop :=
  overflow = true ∨ bytes.length < 3 ∨ bytes.length ≠ (bytes.getD 1 0).toNat + 3

/-- The check byte is not that of the bytes before it. -/
abbrev frameBroken (ads : BitVec 2) (m : Master) (bytes : List Byte) : Prop :=
  checkByte (addressByte ads m false :: bytes.dropLast) ≠ bytes.getLastD 0

/-- What a frame carries that passes orders 1 to 3. -/
def carried (c : Command) (bytes : List Byte) : Passed :=
  { command := c, code := bytes.headD 0, length := bytes.getD 1 0, data := (bytes.drop 2).dropLast }

section
variable {ads : BitVec 2} {m : Master} {bytes : List Byte} {overflow : Bool}

theorem judgeFrame_misfit (h : frameMisfit bytes overflow) : judgeFrame ads m bytes overflow = .error .length := by
  unfold judgeFrame
  split
  · rename_i code len rest
    refine if_pos ?_
    rcases h with h | h | h
    · exact .inr (.inl h)
    · refine .inl (List.length_eq_zero_iff.1 ?_)
      simp only [List.length_cons] at h
      omega
    · exact .inr (.inr h)
  · rfl

/-- A frame that fits has its command, its length and a check byte. -/
theorem bytes_of_fit (h : ¬ frameMisfit bytes overflow) : ∃ code len rest, bytes = code :: len :: rest ∧ rest ≠ [] ∧
    overflow = false ∧ bytes.length = len.toNat + 3 := by
  simp only [frameMisfit, not_or, Nat.not_lt, ne_eq, Classical.not_not, Bool.not_eq_true] at h
  obtain ⟨ho, hl, he⟩ := h
  match bytes, hl, he with
  | code :: len :: rest, hl, he =>
    refine ⟨code, len, rest, rfl, ?_, ho, he⟩
    rintro rfl
    simp at hl
  | [_], hl, _ => simp at hl
  | [], hl, _ => simp at hl

theorem judgeFrame_fit (h : ¬ frameMisfit bytes overflow) : judgeFrame ads m bytes overflow =
    if frameBroken ads m bytes then .error .check
    else match commandOfCode (bytes.headD 0).toNat with
      | none => .error .unknown
      | some c => .ok (carried c bytes) := by
  obtain ⟨code, len, rest, rfl, hr, ho, hl⟩ := bytes_of_fit h
  have fits : ¬ (rest = [] ∨ overflow = true ∨ (code :: len :: rest).length ≠ len.toNat + 3) := by
    rw [ho]
    rintro (k | k | k)
    · exact hr k
    · cases k
    · exact k hl
  exact (if_neg fits).trans rfl

theorem judgeFrame_broken (h : ¬ frameMisfit bytes overflow) (hb : frameBroken ads m bytes) :
    judgeFrame ads m bytes overflow = .error .check := by rw [judgeFrame_fit h, if_pos hb]

theorem judgeFrame_unknown (h : ¬ frameMisfit bytes overflow) (hb : ¬ frameBroken ads m bytes)
    (hc : commandOfCode (bytes.headD 0).toNat = none) : judgeFrame ads m bytes overflow = .error .unknown := by
  rw [judgeFrame_fit h, if_neg hb, hc]

theorem judgeFrame_carried {c : Command} (h : ¬ frameMisfit bytes overflow) (hb : ¬ frameBroken ads m bytes)
    (hc : commandOfCode (bytes.headD 0).toNat = some c) : judgeFrame ads m bytes overflow = .ok (carried c bytes) := by
  rw [judgeFrame_fit h, if_neg hb, hc]

end

/-! ## Taking a command -/

/-- Two effects that agree on the part, with each way its releases may select, and on the part kept apart are taken alike. -/
theorem taken_congr {f g : State → State} {s : State} (hf : ∀ r, f { s with releases := r } = g { s with releases := r })
    (hp : ∀ p, s.releases = .apart p → f (s.shutApart p) = g (s.shutApart p)) : taken f s = taken g s := by
  unfold taken takeEffect runEffect
  cases hr : s.releases with
  | shut =>
    have e : f s = g s := by
      have := hf .shut
      rwa [← hr] at this
    rw [e]
  | apart p => simp only [hf, hp p hr]
  | select | selected | armed => simp only [hf]

/-! ## A STOP -/

/-- A STOP at a frame of which a byte came. -/
theorem stopTransaction_frame {s : State} {m : Master} (hp : s.bus.phase = .receiving) (hm : s.bus.master = some m)
    (hb : s.bus.received ≠ [] ∨ s.bus.overflow = true) :
    stopTransaction s = takeFrame m s.bus.received s.bus.overflow { s with bus := .idle } := by
  unfold stopTransaction
  simp only [hp, hm]
  refine if_neg ?_
  simpa [Classical.or_iff_not_imp_left] using hb

theorem stopTransaction_empty {s : State} (h : s.bus.phase ≠ .receiving ∨ (s.bus.received = [] ∧ s.bus.overflow = false)) :
    stopTransaction s = { s with bus := .idle } := by
  unfold stopTransaction
  split
  · rename_i hp _
    rcases h with h | ⟨hr, ho⟩
    · exact absurd hp h
    · rw [hr, ho]
      rfl
  · rfl

/-- A frame that passes the bus interface goes to its command's owner. -/
theorem takeFrame_ok {m : Master} {bytes : List Byte} {o : Bool} {s : State} {p q : Passed} (h : judgeFrame s.ads m bytes o = .ok p)
    (hw : judgeWrite p = .ok q) : takeFrame m bytes o s = takeWrite m q.command q.data s := by
  have e : (judgeFrame s.ads m bytes o).bind judgeWrite = .ok q := by rw [h]; exact hw
  unfold takeFrame
  rw [e]

theorem takeFrame_error {m : Master} {bytes : List Byte} {o : Bool} {s : State} {r : ResultCode}
    (h : (judgeFrame s.ads m bytes o).bind judgeWrite = .error r) : takeFrame m bytes o s = recordRefusal m r bytes s := by
  unfold takeFrame
  rw [h]

/-- A frame that the bus interface refuses writes the last-result record. -/
theorem busStop_refused {s : State} {m : Master} {r : ResultCode} (h : s.awake) (hp : s.bus.phase = .receiving)
    (hm : s.bus.master = some m) (hb : s.bus.received ≠ [] ∨ s.bus.overflow = true)
    (hj : (judgeFrame s.ads m s.bus.received s.bus.overflow).bind judgeWrite = .error r) :
    exec .busStop s = .next
      { s with bus := .idle, results := s.results.set m { result := r, command := s.bus.received.head?, seat := none } } := by
  have e : stopTransaction s = recordRefusal m r s.bus.received { s with bus := .idle } :=
    (stopTransaction_frame hp hm hb).trans (takeFrame_error (s := { s with bus := .idle }) hj)
  show taken stopTransaction s = _
  rw [taken_quiet _ s h (by rw [e]; exact h.2.1) (by rw [e]; exact h.2.2), e]
  rfl

/-- A frame that fits holds a byte. -/
theorem ne_nil_of_fit {bytes : List Byte} {o : Bool} (h : ¬ frameMisfit bytes o) : bytes ≠ [] := by
  rintro rfl
  exact h (.inr (.inl (by decide)))

/-- Settles O9: the judgement of the frame decides. -/
theorem busStopRefusesInOrder : Obligations.BusStopRefusesInOrder := by
  refine ⟨fun s h he => ?_, fun s m h hp hm => ?_⟩
  · exact taken_bus _ s _ h (stopTransaction_empty he)
  · refine ⟨fun hb hx => ?_, fun hx hb => ?_, fun hx hb hc => ?_, fun c hx hb hc hr => ?_, fun c hx hb hc hr hl => ?_,
      fun c hx hb hc hr hl => ?_⟩
    · refine busStop_refused h hp hm hb ?_
      rw [judgeFrame_misfit hx]
      rfl
    · refine busStop_refused h hp hm (.inl (ne_nil_of_fit hx)) ?_
      rw [judgeFrame_broken hx hb]
      rfl
    · refine busStop_refused h hp hm (.inl (ne_nil_of_fit hx)) ?_
      rw [judgeFrame_unknown hx hb hc]
      rfl
    · refine busStop_refused h hp hm (.inl (ne_nil_of_fit hx)) ?_
      rw [judgeFrame_carried hx hb hc]
      exact if_pos hr
    · refine busStop_refused h hp hm (.inl (ne_nil_of_fit hx)) ?_
      rw [judgeFrame_carried hx hb hc]
      exact (if_neg (by simp [carried, hr])).trans (if_pos hl)
    · refine taken_congr (fun r => ?_) fun p hr => absurd (h.2.2.symm.trans hr) (by simp)
      have ok : judgeWrite (carried c s.bus.received) = .ok (carried c s.bus.received) :=
        (if_neg (by simp [carried, hr])).trans (if_neg (by simpa [carried] using hl))
      rw [stopTransaction_frame (s := { s with releases := r }) hp hm (.inl (ne_nil_of_fit hx))]
      exact takeFrame_ok (s := { s with releases := r, bus := .idle }) (judgeFrame_carried hx hb hc) ok

/-! ## A repeated START -/

/-- A repeated START inside a transaction. -/
theorem repeatStart_within {s : State} (a : Byte) (h : s.bus.phase ≠ .idle) : repeatStart a s = continueTransaction a s := by
  unfold repeatStart
  cases e : s.bus.phase with
  | idle => exact absurd e h
  | receiving => rfl
  | sending => rfl

/-- A repeated START with the read address of the master whose frame is in progress. -/
theorem repeatStart_request {s : State} {m : Master} (hp : s.bus.phase = .receiving) (hm : s.bus.master = some m) :
    repeatStart (addressByte s.ads m true) s = respond m (answerRequest m s.bus.received s.bus.overflow s) := by
  rw [repeatStart_within _ (by simp [hp])]
  unfold continueTransaction
  simp only [addressed_addressByte, hm, hp, if_true]

/-- An answer that changes nothing, as a response. -/
theorem repeatedStart_answered {s : State} {m : Master} {a : List Byte} (h : s.awake) (hp : s.bus.phase = .receiving)
    (hm : s.bus.master = some m) (e : answerRequest m s.bus.received s.bus.overflow s = (s, a)) :
    exec (.repeatedStart (addressByte s.ads m true)) s = .next (s.responding m a s.bus.time) := by
  refine taken_bus _ s _ h ?_
  rw [repeatStart_request hp hm, e]
  rfl

theorem answerRequest_error {m : Master} {bytes : List Byte} {o : Bool} {s : State} {r : ResultCode}
    (h : judgeFrame s.ads m bytes o = .error r) : answerRequest m bytes o s = refusal r s := by
  unfold answerRequest
  rw [h]

theorem answerRequest_ok {m : Master} {bytes : List Byte} {o : Bool} {s : State} {p : Passed}
    (h : judgeFrame s.ads m bytes o = .ok p) : answerRequest m bytes o s =
      if p.command.isRead then
        match judgeRead p with
        | .error r => refusal r s
        | .ok q => takeRead m q.command q.data s
      else answerReadResult m s := by
  unfold answerRequest
  rw [h] <;> rfl

/-- A request that passes goes to its command's owner. -/
theorem answerRequest_read {m : Master} {bytes : List Byte} {o : Bool} {s : State} {c : Command} (hx : ¬ frameMisfit bytes o)
    (hb : ¬ frameBroken s.ads m bytes) (hc : commandOfCode (bytes.headD 0).toNat = some c) (hr : c.isRead = true)
    (hl : (bytes.getD 1 0).toNat = c.dataLength) : answerRequest m bytes o s = takeRead m c ((bytes.drop 2).dropLast) s := by
  have ok : judgeRead (carried c bytes) = .ok (carried c bytes) := if_neg (by simpa [carried] using hl)
  rw [answerRequest_ok (judgeFrame_carried hx hb hc), ok]
  exact if_pos hr

/-- What an answer may change: a record, the log, and the pending sets. -/
theorem takeRead_touches (m : Master) (c : Command) (d : List Byte) (s : State) : (takeRead m c d s).1 =
    { s with ram := (takeRead m c d s).1.ram, log := (takeRead m c d s).1.log, notices := (takeRead m c d s).1.notices } := by
  have same {r : State × List Byte} (h : r.1 = s) : r.1 = { s with ram := r.1.ram, log := r.1.log, notices := r.1.notices } := by
    rw [h]
  cases c with
  | readSeat => match d with
    | [_, _] => exact same (answerReadSeat_state m _ _ s)
    | [] | [_] | _ :: _ :: _ :: _ => rfl
  | readBudget => match d with
    | [_] => exact same (answerReadBudget_state m _ s)
    | [] | _ :: _ :: _ => rfl
  | readStep => match d with
    | [i] =>
      show (answerReadStep m i s).1 = { s with
        ram := (answerReadStep m i s).1.ram, log := (answerReadStep m i s).1.log, notices := (answerReadStep m i s).1.notices }
      unfold answerReadStep
      split
      · exact readRecord_touches i s
      · rfl
    | [] | _ :: _ :: _ => rfl
  | readProgramEntry => match d with
    | [_] => exact same (answerReadEntry_state m _ s)
    | [] | _ :: _ :: _ => rfl
  | readParameter => match d with
    | [_] => exact same (answerReadParameter_state m _ s)
    | [] | _ :: _ :: _ => rfl
  | readDiagnostics => match d with
    | [_] => exact same (answerReadDiagnostics_state m _ s)
    | [] | _ :: _ :: _ => rfl
  | readAccess => match d with
    | [] => exact same (answerReadAccess_state m s)
    | _ :: _ => rfl
  | takeNotice => match d with
    | [] =>
      show (answerTakeNotice m s).1 = { s with
        ram := (answerTakeNotice m s).1.ram, log := (answerTakeNotice m s).1.log, notices := (answerTakeNotice m s).1.notices }
      unfold answerTakeNotice
      split <;> rfl
    | _ :: _ => rfl
  | readNotices => match d with
    | [] | _ :: _ => rfl
  | readResult => match d with
    | [] | _ :: _ => rfl
  | _ => rfl

/-- A read makes no report and no release. -/
theorem takeRead_quiet (m : Master) (c : Command) (d : List Byte) (s : State) :
    (takeRead m c d s).1.reports = s.reports ∧ (takeRead m c d s).1.releases = s.releases := by
  rw [takeRead_touches]
  exact ⟨rfl, rfl⟩

/-- Settles O10: the phase and the address decide, and within RECEIVING the judgement of the request. -/
theorem repeatedStartCases : Obligations.RepeatedStartCases := by
  refine ⟨fun a s h hp => ?_, fun m s h hp => ?_, fun m s h hp hm => ?_, fun m s h hp hm => ?_, fun m s h hp hm => ?_,
    fun a s h hp ha => ?_⟩
  · have same (u : State) (k : u.bus.phase = .idle) : repeatStart a u = startTransaction a u := by
      unfold repeatStart
      rw [k]
    exact taken_congr (fun r => same { s with releases := r } hp) fun p hr => absurd (h.2.2.symm.trans hr) (by simp)
  · refine taken_bus _ s _ h ?_
    rw [repeatStart_within _ hp]
    unfold continueTransaction
    rw [addressed_addressByte]
    rfl
  · refine ⟨fun hx => ?_, fun hx hb => ?_, fun hx hb hc => ?_, fun c hx hb hc hr => ?_, fun c hx hb hc hr hl => ?_,
      fun c hx hb hc hr hl => ?_⟩
    · exact repeatedStart_answered h hp hm (answerRequest_error (judgeFrame_misfit hx))
    · exact repeatedStart_answered h hp hm (answerRequest_error (judgeFrame_broken hx hb))
    · exact repeatedStart_answered h hp hm (answerRequest_error (judgeFrame_unknown hx hb hc))
    · refine repeatedStart_answered h hp hm ?_
      rw [answerRequest_ok (judgeFrame_carried hx hb hc)]
      exact if_neg (by simp [carried, hr])
    · refine repeatedStart_answered h hp hm ?_
      have wrong : judgeRead (carried c s.bus.received) = .error .length := if_pos hl
      rw [answerRequest_ok (judgeFrame_carried hx hb hc), wrong]
      exact if_pos hr
    · show taken (repeatStart _) s = _
      obtain ⟨quiet, still⟩ := takeRead_quiet m c ((s.bus.received.drop 2).dropLast) s
      have e : repeatStart (addressByte s.ads m true) s = respond m (takeRead m c ((s.bus.received.drop 2).dropLast) s) := by
        rw [repeatStart_request hp hm, answerRequest_read hx hb hc hr hl]
      rw [taken_quiet _ s h (by rw [e]; exact quiet.trans h.2.1) (by rw [e]; exact still.trans h.2.2), e]
      rw [settle_nil _ (respond m _) (quiet.trans h.2.1)]
  · refine taken_bus _ s _ h ?_
    rw [repeatStart_within _ (by simp [hp])]
    unfold continueTransaction
    simp only [addressed_addressByte, hm, hp, if_true]
    rfl
  · refine taken_bus _ s _ h ?_
    rw [repeatStart_within _ hp]
    unfold continueTransaction
    simp only [addressed_addressByte, hm, if_false]
    rfl
  · refine taken_bus _ s _ h ?_
    rw [repeatStart_within _ hp]
    unfold continueTransaction
    rw [addressed_none _ _ ha]
    rfl

end Sys2Proof.Machine
end
section
/-! PROOFS. A command's row and its transaction on the wire, byte for byte (O6, O7). -/
namespace Sys2Proof.Machine

/-! ## Events that reach the bus record alone -/

/-- The part with its releases as given. -/
def State.releasing (s : State) (r : Releases) : State := { s with releases := r }

/-- A command of a part in which the moment has neither shut the arbiter nor kept a part apart. -/
theorem taken_selecting (f : State → State) {s : State} (hp : s.powered = true) (h : s.releases ≠ .shut)
    (ha : ∀ p, s.releases ≠ .apart p) : taken f s = .next ((runEffect f (s.releasing .select)).releasing
      (if (runEffect f (s.releasing .select)).releases = .selected then .apart (runEffect f (s.releasing .armed)).toPart
      else .select)) := by
  unfold taken takeEffect
  rw [if_pos hp]
  cases hr : s.releases with
  | shut => exact absurd hr h
  | apart p => exact absurd hr (ha p)
  | select | selected | armed => rfl

/-- A command of a part that keeps a part apart. -/
theorem taken_beside (f : State → State) {p : Part} {s : State} (hp : s.powered = true) (h : s.releases = .apart p) :
    taken f s = .next
      (if withdrawsPump p (runEffect f (s.shutApart p)).toPart then (runEffect f (s.shutApart p)).releasing .select
      else (runEffect f (s.releasing .select)).releasing
        (if (runEffect f (s.releasing .select)).powered then .apart (runEffect f (s.shutApart p)).toPart else .select)) :=
  taken_apart f p s hp h

/-- An effect that reaches the bus record alone, and does not look at how releases select. -/
structure BusOnly (f : State → State) : Prop where
  touches : ∀ u, f u = { u with bus := (f u).bus }
  select : ∀ u r, f (u.releasing r) = (f u).releasing r

section
variable {f : State → State} (hf : BusOnly f)
include hf

theorem BusOnly.run {u : State} (h : u.reports = []) : runEffect f u = f u := settle_nil _ _ (by rw [hf.touches]; exact h)

theorem BusOnly.keeps (u : State) : (f u).powered = u.powered ∧ (f u).releases = u.releases ∧ (f u).reports = u.reports ∧
    (f u).pending = u.pending ∧ (f u).budget = u.budget := by
  rw [hf.touches]
  exact ⟨rfl, rfl, rfl, rfl, rfl⟩

/-- It withdraws no permission. -/
theorem BusOnly.withdrawsPump_left (p : Part) (s : State) (q : Part) :
    withdrawsPump (f (s.shutApart p)).toPart q = withdrawsPump p q := by
  unfold withdrawsPump
  rw [(hf.keeps _).2.2.2.2]
  rfl

theorem BusOnly.withdrawsPump_right (p : Part) (s : State) : withdrawsPump p (f (s.shutApart p)).toPart = false := by
  unfold withdrawsPump
  rw [(hf.keeps _).2.2.2.2]
  show (p.budget.result.permitted && p.budget.result.demandSeen && !p.budget.result.permitted) = false
  cases p.budget.result.permitted <;> simp

/-- It takes the part kept apart along. -/
theorem BusOnly.shutApart (p : Part) (s : State) (r : Releases) :
    State.shutApart (f (s.shutApart p)).toPart ((f s).releasing r) = f (s.shutApart p) := by
  obtain ⟨-, b, a, c, -⟩ := hf.keeps (s.shutApart p)
  have d : (f s).pending = s.pending := (hf.keeps s).2.2.2.1
  generalize f (s.shutApart p) = u at a b c
  obtain ⟨q, l, r', w⟩ := u
  cases a
  cases b
  cases c
  simp only [State.shutApart, State.releasing, d]

/-- Such an effect leaves a state from which the next command goes on as from both effects together. -/
theorem taken_busOnly {s : State} (h : s.reports = []) :
    ∃ t, taken f s = .next t ∧ t.reports = [] ∧ ∀ g, taken g t = taken (fun u => g (f u)) s := by
  obtain ⟨powered, releases, reports, -, -⟩ := hf.keeps s
  have both (g : State → State) (r : Releases) :
      runEffect (fun u => g (f u)) (s.releasing r) = runEffect g ((f s).releasing r) := by
    show settle reportBound (g (f (s.releasing r))) = _
    rw [hf.select]
    rfl
  by_cases hp : s.powered = true
  · have run : runEffect f (s.releasing .select) = (f s).releasing .select := by
      rw [hf.run (u := s.releasing .select) h, hf.select]
    by_cases hs : s.releases = .shut
    · refine ⟨f s, ?_, reports.trans h, fun g => ?_⟩
      · rw [taken_shut f s hp hs, hf.run h, ← hs, ← releases]
      · rw [taken_shut g (f s) (powered.trans hp) (releases.trans hs), taken_shut _ s hp hs]
        rfl
    · by_cases ha : ∃ p, s.releases = .apart p
      · obtain ⟨p, ha⟩ := ha
        refine ⟨(f s).releasing (.apart (f (s.shutApart p)).toPart), ?_, reports.trans h, fun g => ?_⟩
        · rw [taken_beside f hp ha, run, hf.run rfl, hf.withdrawsPump_right,
            if_pos (show ((f s).releasing .select).powered = true from powered.trans hp)]
          rfl
        · rw [taken_beside g (s := (f s).releasing (.apart (f (s.shutApart p)).toPart)) (powered.trans hp) rfl, taken_beside _ hp ha, hf.shutApart,
            hf.withdrawsPump_left, both g]
          rfl
      · refine ⟨(f s).releasing .select, ?_, reports.trans h, fun g => ?_⟩
        · rw [taken_selecting f hp hs fun p k => ha ⟨p, k⟩, run]
          rfl
        · rw [taken_selecting g (s := (f s).releasing .select) (powered.trans hp) (fun k => by cases k) (fun _ k => by cases k),
            taken_selecting _ hp hs fun p k => ha ⟨p, k⟩]
          rw [both g, both g]
          rfl
  · exact ⟨s, by simp [taken, hp], h, fun g => by simp [taken, hp]⟩

end

/-- Commands that reach the bus record alone and one more, taken one after another, are taken as one effect. -/
theorem execAll_busOnly (c : Instr) (hc : ∀ s, exec c s = taken (effectOf c) s) (l : List Instr)
    (hl : ∀ i ∈ l, (∀ s, exec i s = taken (effectOf i) s) ∧ BusOnly (effectOf i)) (s : State) (h : s.reports = []) :
    execAll (l ++ [c]) s = taken (fun u => effectOf c (l.foldl (fun v i => effectOf i v) u)) s := by
  induction l generalizing s with
  | nil =>
    show (match exec c s with
      | .next t => execAll [] t
      | .fault f => .fault f
      | .refused r => .refused r) = _
    rw [hc]
    rfl
  | cons i l ih =>
    obtain ⟨hi, bi⟩ := hl i (.head _)
    obtain ⟨t, ht, quiet, next⟩ := taken_busOnly bi h
    show (match exec i s with
      | .next t => execAll (l ++ [c]) t
      | .fault f => .fault f
      | .refused r => .refused r) = _
    rw [hi, ht]
    exact (ih (fun j hj => hl j (.tail _ hj)) t quiet).trans (next _)

theorem startTransaction_unscanned {u : State} (a : Byte) (h : u.scanned = false) : startTransaction a u = u.passedOver := by
  unfold startTransaction
  rw [if_neg (by simp [h])]

theorem startTransaction_busOnly (a : Byte) : BusOnly (startTransaction a) where
  touches u := by
    unfold startTransaction
    dsimp only
    split
    · split <;> rfl
    · rfl
  select u r := by
    cases h : u.scanned with
    | false => rw [startTransaction_unscanned a h, startTransaction_unscanned (u := u.releasing r) a h]; rfl
    | true =>
      rw [startTransaction_scanned a h, startTransaction_scanned (s := u.releasing r) a h]
      rcases e : addressed u.ads a with _ | ⟨m, _ | _⟩
      all_goals
        rw [show addressed (u.releasing r).ads a = _ from e]
        rfl

theorem receiveByte_busOnly (b : Byte) : BusOnly (receiveByte b) where
  touches u := by
    unfold receiveByte
    dsimp only
    split <;> rfl
  select u r := by
    cases h : u.bus.phase
    all_goals
      unfold receiveByte
      rw [show (u.releasing r).bus.phase = _ from h, h]
      rfl

/-! ## A frame in progress -/

/-- A part in which a frame of `m` has come so far. -/
def State.framing (u : State) (m : Master) (bytes : List Byte) : State :=
  { u with bus := { BusRecord.idle with
    phase := .receiving, master := some m, received := bytes, ack := true, low := u.freshLow } }

theorem startTransaction_framing {u : State} (m : Master) (h : u.scanned = true) :
    startTransaction (addressByte u.ads m false) u = u.framing m [] := by
  rw [startTransaction_scanned _ h, addressed_addressByte]
  rfl

theorem receiveByte_framing (u : State) (m : Master) (bytes : List Byte) (b : Byte) (h : bytes.length < 35) :
    receiveByte b (u.framing m bytes) = u.framing m (bytes ++ [b]) := by
  show ({ u with bus := BusRecord.keepByte b (u.framing m bytes).bus } : State) = _
  unfold BusRecord.keepByte
  rw [if_pos (show (u.framing m bytes).bus.received.length < 35 from h)]
  rfl

theorem receiveBytes_framing (u : State) (m : Master) (bytes l : List Byte) (h : bytes.length + l.length ≤ 35) :
    l.foldl (fun v b => receiveByte b v) (u.framing m bytes) = u.framing m (bytes ++ l) := by
  induction l generalizing bytes with
  | nil => simp
  | cons b l ih =>
    simp only [List.length_cons] at h
    rw [List.foldl_cons, receiveByte_framing u m bytes b (by omega), ih (bytes ++ [b]) (by simp; omega)]
    simp

theorem receiveBytes_passedOver (u : State) (l : List Byte) : l.foldl (fun v b => receiveByte b v) u.passedOver = u.passedOver := by
  induction l with
  | nil => rfl
  | cons b l ih => exact ih

/-! ## The frame that a row stands for -/

section
variable (ads : BitVec 2) (m : Master) (code : Byte) (data : List Byte)

theorem frameBytes_length : (frameBytes ads m code data).length = data.length + 3 := by simp [frameBytes]

theorem frameBytes_fits (h : data.length ≤ 14) : ¬ frameMisfit (frameBytes ads m code data) false := by
  have e : (byteOf data.length).toNat = data.length := by simp [byteOf]; omega
  simp [frameMisfit, frameBytes, e]

theorem frameBytes_whole : ¬ frameBroken ads m (frameBytes ads m code data) := by
  unfold frameBytes frameBroken
  dsimp only
  rw [List.dropLast_concat, List.getLastD_concat]
  exact fun h => h rfl

theorem frameBytes_carried : ((frameBytes ads m code data).drop 2).dropLast = data := by simp [frameBytes]

end

theorem dataLength_le (c : Command) : c.dataLength ≤ 14 := by cases c <;> decide

/-- The two bytes of a half carry it. -/
theorem halfOf_bytes (v : Half) : halfOf (byteOf (v.toNat / 256)) (byteOf v.toNat) = v := by
  apply BitVec.eq_of_toNat_eq
  have hv := v.isLt
  have hi : v.toNat / 256 % 2 ^ 8 = v.toNat / 256 := Nat.mod_eq_of_lt (by omega)
  rw [halfOf, BitVec.toNat_append, BitVec.toNat_ofNat, BitVec.toNat_ofNat, hi, ← Nat.shiftLeft_add_eq_or_of_lt (by omega),
    Nat.shiftLeft_eq]
  omega

/-- The frame of a write command's row carries that command, which its owner takes as the row does. -/
theorem writeFrameOf_row {i : Instr} {m : Master} {code : Byte} {data : List Byte} (h : writeFrameOf i = some (m, code, data)) :
    ∃ c, commandOfCode code.toNat = some c ∧ c.isRead = false ∧ c.dataLength = data.length ∧
      effectOf i = writeRow (takeWrite m c data) := by
  cases i with
  | setSupport m x c v =>
    cases h
    refine ⟨.setSupport, rfl, rfl, rfl, ?_⟩
    show writeRow (takeSetSupport m x c v) = writeRow (takeSetSupport m x c (halfOf _ _))
    rw [halfOf_bytes]
  | setCeiling m c =>
    cases h
    refine ⟨.setCeiling, rfl, rfl, rfl, ?_⟩
    show writeRow (takeSetCeiling m c) = writeRow (takeSetCeiling m (halfOf _ _))
    rw [halfOf_bytes]
  | writeStep m d =>
    cases h
    refine ⟨.writeStep, rfl, rfl, rfl, ?_⟩
    have whole : stepDataOf (stepDataBytes d) = some d := by
      show some { d with vent := halfOf _ _, fill := halfOf _ _, target := halfOf _ _ } = some d
      rw [halfOf_bytes, halfOf_bytes, halfOf_bytes]
    have e : takeWrite m .writeStep (stepDataBytes d) = takeWriteStep m d := by
      funext s
      show (match stepDataOf (stepDataBytes d) with
        | some d => takeWriteStep m d s
        | none => s) = _
      rw [whole]
    rw [e]
    rfl
  | writeParameter m n v =>
    cases h
    refine ⟨.writeParameter, rfl, rfl, rfl, ?_⟩
    show writeRow (takeWriteParameter m n v) = writeRow (takeWriteParameter m n (halfOf _ _))
    rw [halfOf_bytes]
  | setNoticeMask m k =>
    cases h
    refine ⟨.setNoticeMask, rfl, rfl, rfl, ?_⟩
    show writeRow (takeSetMask m k) = writeRow (takeSetMask m (halfOf _ _))
    rw [halfOf_bytes]
  | setZone | setFan | startProgram | adjustProgram | pause | resume | stopProgram | resetSeats | writeProgramEntry
  | clearDiagnostics | writeAccess =>
    cases h
    exact ⟨_, rfl, rfl, rfl, rfl⟩
  | _ => cases h

/-- The frame of a read command's row carries that command, which its owner answers as the row does. -/
theorem readFrameOf_row {i : Instr} {m : Master} {code : Byte} {data : List Byte} (h : readFrameOf i = some (m, code, data)) :
    ∃ c, commandOfCode code.toNat = some c ∧ c.isRead = true ∧ c.dataLength = data.length ∧
      effectOf i = readRow m (takeRead m c data) := by
  cases i with
  | readSeat | readBudget | readStep | readProgramEntry | readParameter | readDiagnostics | readAccess | takeNotice
  | readNotices | readResult =>
    cases h
    exact ⟨_, rfl, rfl, rfl, rfl⟩
  | _ => cases h

/-- The rows are taken as effects. -/
theorem exec_eq_taken_of_frame {i : Instr} {f : Master × Byte × List Byte}
    (h : writeFrameOf i = some f ∨ readFrameOf i = some f) (s : State) : exec i s = taken (effectOf i) s := by
  refine exec_eq_taken i s (fun ads l r v e => ?_) fun e => ?_
  all_goals
    subst e
    rcases h with h | h <;> cases h

/-- A choice between answers that carry the same bytes. -/
theorem ite_answer {c : Prop} [Decidable c] {a b a' b' : State × List Byte} (ha : a.2 = a'.2) (hb : b.2 = b'.2) :
    (if c then a else b).2 = (if c then a' else b').2 := by
  split
  · exact ha
  · exact hb

/-- The bytes that an owner answers do not hang on the bus record. -/
theorem takeRead_bytes (m : Master) (c : Command) (d : List Byte) (s : State) (b : BusRecord) :
    (takeRead m c d { s with bus := b }).2 = (takeRead m c d s).2 := by
  cases c with
  | readSeat => match d with
    | [x, p] =>
      show (answerReadSeat m x p { s with bus := b }).2 = (answerReadSeat m x p s).2
      unfold answerReadSeat
      cases seatOfCode x.toNat with
      | none => rfl
      | some y => exact ite_answer (ite_answer rfl rfl) rfl
    | [] | [_] | _ :: _ :: _ :: _ => rfl
  | readBudget | readProgramEntry | readParameter | readDiagnostics => match d with
    | [_] => exact ite_answer (ite_answer rfl rfl) rfl
    | [] | _ :: _ :: _ => rfl
  | readStep => match d with
    | [_] => exact ite_answer rfl rfl
    | [] | _ :: _ :: _ => rfl
  | readAccess => match d with
    | [] => exact ite_answer rfl rfl
    | _ :: _ => rfl
  | takeNotice => match d with
    | [] =>
      show (answerTakeNotice m { s with bus := b }).2 = (answerTakeNotice m s).2
      unfold answerTakeNotice
      cases (s.notices.get m).chosen <;> rfl
    | _ :: _ => rfl
  | readNotices | readResult => match d with
    | [] | _ :: _ => rfl
  | _ => rfl

/-- A checked read does not look at the bus record. -/
theorem readRecord_bus (i : StepIndex) (s : State) (b : BusRecord) :
    readRecord i { s with bus := b } = { readRecord i s with bus := b } := by
  unfold readRecord
  rw [show State.storeAnswer { s with bus := b } i = s.storeAnswer i from rfl]
  rcases s.storeAnswer i with f | ⟨_ | _, c⟩ | _
  · rfl
  · rfl
  · unfold correctRecord
    cases h : s.log.reported with
    | true => rfl
    | false => rfl
  · rfl

/-- What an owner answers, and what it leaves, does not hang on the bus record. -/
theorem takeRead_bus (m : Master) (c : Command) (d : List Byte) (s : State) (b : BusRecord) :
    takeRead m c d { s with bus := b } = ({ (takeRead m c d s).1 with bus := b }, (takeRead m c d s).2) := by
  have plain {f : State → State × List Byte} (h : ∀ u, (f u).1 = u) :
      (f { s with bus := b }).1 = { (f s).1 with bus := b } := by rw [h, h]
  refine Prod.ext ?_ (takeRead_bytes m c d s b)
  cases c with
  | readSeat => match d with
    | [_, _] => exact plain (answerReadSeat_state m _ _)
    | [] | [_] | _ :: _ :: _ :: _ => rfl
  | readBudget => match d with
    | [_] => exact plain (answerReadBudget_state m _)
    | [] | _ :: _ :: _ => rfl
  | readStep => match d with
    | [i] =>
      show (answerReadStep m i { s with bus := b }).1 = { (answerReadStep m i s).1 with bus := b }
      unfold answerReadStep
      rw [show State.mayRead { s with bus := b } m .store = s.mayRead m .store from rfl]
      split
      · exact readRecord_bus i s b
      · rfl
    | [] | _ :: _ :: _ => rfl
  | readProgramEntry => match d with
    | [_] => exact plain (answerReadEntry_state m _)
    | [] | _ :: _ :: _ => rfl
  | readParameter => match d with
    | [_] => exact plain (answerReadParameter_state m _)
    | [] | _ :: _ :: _ => rfl
  | readDiagnostics => match d with
    | [_] => exact plain (answerReadDiagnostics_state m _)
    | [] | _ :: _ :: _ => rfl
  | readAccess => match d with
    | [] => exact plain (answerReadAccess_state m)
    | _ :: _ => rfl
  | takeNotice => match d with
    | [] =>
      show (answerTakeNotice m { s with bus := b }).1 = { (answerTakeNotice m s).1 with bus := b }
      unfold answerTakeNotice
      cases (s.notices.get m).chosen <;> rfl
    | _ :: _ => rfl
  | readNotices | readResult => match d with
    | [] | _ :: _ => rfl
  | _ => rfl

/-! ## Whole transactions -/

section
variable {u : State} {m : Master} {c : Command} {code : Byte} {data : List Byte}

/-- The START of a frame and its bytes. -/
theorem frame_taken (h : data.length ≤ 14) (hs : u.scanned = true) :
    (frameBytes u.ads m code data).foldl (fun v b => receiveByte b v) (startTransaction (addressByte u.ads m false) u) =
      u.framing m (frameBytes u.ads m code data) := by
  rw [startTransaction_framing m hs, receiveBytes_framing _ _ _ _ (by rw [frameBytes_length]; simp; omega)]
  rfl

theorem frame_passedOver (hs : u.scanned = false) :
    (frameBytes u.ads m code data).foldl (fun v b => receiveByte b v) (startTransaction (addressByte u.ads m false) u) =
      u.passedOver := by
  rw [startTransaction_unscanned _ hs, receiveBytes_passedOver]

theorem frameBytes_ne_nil (ads : BitVec 2) : frameBytes ads m code data ≠ [] := by simp [frameBytes]

/-- A write frame is taken as its row. -/
theorem writeFrame_taken (hc : commandOfCode code.toNat = some c) (hr : c.isRead = false) (hl : c.dataLength = data.length) :
    stopTransaction ((frameBytes u.ads m code data).foldl (fun v b => receiveByte b v)
      (startTransaction (addressByte u.ads m false) u)) = writeRow (takeWrite m c data) u := by
  have short : data.length ≤ 14 := hl ▸ dataLength_le c
  unfold writeRow
  by_cases hs : u.scanned = true
  rotate_left
  · rw [if_neg hs, frame_passedOver (by simpa using hs)]
    rfl
  · rw [if_pos hs]
    have fits := frameBytes_fits u.ads m code data short
    have size : ((frameBytes u.ads m code data).getD 1 0).toNat = c.dataLength := by
      rw [hl]
      show (byteOf data.length).toNat = _
      simp [byteOf]
      omega
    have ok : judgeWrite (carried c (frameBytes u.ads m code data)) = .ok (carried c (frameBytes u.ads m code data)) :=
      (if_neg (by simp [carried, hr])).trans (if_neg (by simpa [carried] using size))
    rw [frame_taken short hs, stopTransaction_frame (s := u.framing m (frameBytes u.ads m code data)) rfl rfl
      (.inl (frameBytes_ne_nil _))]
    refine (takeFrame_ok (s := { u with bus := .idle })
      (judgeFrame_carried (c := c) fits (frameBytes_whole u.ads m code data) hc) ok).trans ?_
    show takeWrite m c ((frameBytes u.ads m code data).drop 2).dropLast _ = takeWrite m c data _
    rw [frameBytes_carried]

/-- A request frame and its repeated START are taken as their row. -/
theorem readFrame_taken (hc : commandOfCode code.toNat = some c) (hr : c.isRead = true) (hl : c.dataLength = data.length) :
    repeatStart (addressByte u.ads m true) ((frameBytes u.ads m code data).foldl (fun v b => receiveByte b v)
      (startTransaction (addressByte u.ads m false) u)) = readRow m (takeRead m c data) u := by
  have short : data.length ≤ 14 := hl ▸ dataLength_le c
  unfold readRow
  by_cases hs : u.scanned = true
  rotate_left
  · have idle : u.scanned = false := by simpa using hs
    rw [if_neg hs, frame_passedOver idle]
    exact startTransaction_unscanned (u := u.passedOver) _ idle
  · rw [if_pos hs]
    have size : ((frameBytes u.ads m code data).getD 1 0).toNat = c.dataLength := by
      rw [hl]
      show (byteOf data.length).toNat = _
      simp [byteOf]
      omega
    rw [frame_taken short hs]
    refine (repeatStart_request (s := u.framing m (frameBytes u.ads m code data)) rfl rfl).trans ?_
    show respond m (answerRequest m (frameBytes u.ads m code data) false (u.framing m _)) = _
    rw [answerRequest_read (s := u.framing m _) (frameBytes_fits u.ads m code data short) (frameBytes_whole u.ads m code data)
      hc hr size, frameBytes_carried]
    show respond m (takeRead m c data { u with bus := (u.framing m _).bus }) = respond m (takeRead m c data { u with bus := .idle })
    rw [takeRead_bus, takeRead_bus m c data u .idle]
    rfl

/-- The events of a frame reach the bus record alone. -/
theorem frameEvents_busOnly {l : List Byte} {a : Byte} {i : Instr} (h : i ∈ Instr.transactionStart a :: l.map .frameByte) :
    (∀ s, exec i s = taken (effectOf i) s) ∧ BusOnly (effectOf i) := by
  rw [List.mem_cons, List.mem_map] at h
  rcases h with rfl | ⟨b, -, rfl⟩
  · exact ⟨fun s => rfl, startTransaction_busOnly a⟩
  · exact ⟨fun s => rfl, receiveByte_busOnly b⟩

/-- The events of a transaction are taken as one effect. -/
theorem execAll_frame (z : Instr) (hz : ∀ s, exec z s = taken (effectOf z) s) (a : Byte) (l : List Byte) (s : State)
    (h : s.reports = []) : execAll (.transactionStart a :: l.map .frameByte ++ [z]) s =
      taken (fun u => effectOf z (l.foldl (fun v b => receiveByte b v) (startTransaction a u))) s := by
  rw [execAll_busOnly z hz _ (fun i hi => frameEvents_busOnly hi) s h]
  congr 1
  funext u
  rw [List.foldl_cons, List.foldl_map]
  rfl

end

/-- Settles O6: the START and the bytes reach the bus record alone, so the frame is one effect, which is its row's. -/
theorem writeFrameIsItsCommand : Obligations.WriteFrameIsItsCommand := by
  intro i m code data s hi hs hads
  obtain ⟨c, hc, hr, hl, row⟩ := writeFrameOf_row hi
  rw [exec_eq_taken_of_frame (.inl hi), row]
  refine (execAll_frame .busStop (fun _ => rfl) _ _ s hs).trans (taken_congr (fun r => ?_) fun p hp => ?_)
  · exact writeFrame_taken (u := { s with releases := r }) hc hr hl
  · have e : s.ads = (s.shutApart p).ads := (hads p hp).symm
    rw [e]
    exact writeFrame_taken hc hr hl

/-- Settles O7: the request frame reaches the bus record alone, and its repeated START answers as the row does. -/
theorem readFrameIsItsCommand : Obligations.ReadFrameIsItsCommand := by
  intro i m code data s hi hs hads
  obtain ⟨c, hc, hr, hl, row⟩ := readFrameOf_row hi
  rw [exec_eq_taken_of_frame (.inr hi), row]
  refine (execAll_frame (.repeatedStart _) (fun _ => rfl) _ _ s hs).trans (taken_congr (fun r => ?_) fun p hp => ?_)
  · exact readFrame_taken (u := { s with releases := r }) hc hr hl
  · have e : s.ads = (s.shutApart p).ads := (hads p hp).symm
    rw [e]
    exact readFrame_taken hc hr hl

end Sys2Proof.Machine
end
section
/-! PROOFS. The forms of a bus row, and the refusals of every command (O12). -/
namespace Sys2Proof.Machine

/-! ## Rows -/

section
variable {s : State} (h : s.onBus)
include h

/-- A write row that makes no report and no release. -/
theorem taken_write (f : State → State) (hr : (f { s with bus := .idle }).reports = [])
    (hs : (f { s with bus := .idle }).releases = .select) : taken (writeRow f) s = .next (f { s with bus := .idle }) := by
  rw [taken_quiet _ s h.1 (by rw [writeRow_onBus f s h]; exact hr) (by rw [writeRow_onBus f s h]; exact hs), writeRow_onBus f s h]

/-- A write row whose owner refuses. -/
theorem taken_refused {f : State → State} {m : Master} {code : Byte} {x : Option Seat} {r : ResultCode}
    (e : f { s with bus := .idle } = recordResult m code x (refuse r { s with bus := .idle })) :
    taken (writeRow f) s = .next (s.recorded m code x r) := by
  rw [taken_write h f (by rw [e]; exact h.1.2.1) (by rw [e]; exact h.1.2.2), e, recordResult_refuse]

/-- A read row whose owner changes nothing. -/
theorem taken_answer {f : State → State × List Byte} {m : Master} {a : List Byte}
    (e : f { s with bus := .idle } = ({ s with bus := .idle }, a)) : taken (readRow m f) s = .next (s.responding m a) := by
  have row : readRow m f s = s.responding m a := by
    rw [readRow_onBus m f s h, e]
    rfl
  rw [taken_quiet _ s h.1 (by rw [row]; exact h.1.2.1) (by rw [row]; exact h.1.2.2), row]

end

/-! ## Codes that name nothing (spec/00 section 4.3) -/

theorem heatPartOfCode_none {n : Nat} (h : 4 < n) : heatPartOfCode n = none := by
  match n, h with
  | _ + 5, _ => rfl

theorem zoneOfCode_none {n : Nat} (h : 9 < n) : zoneOfCode n = none := by
  unfold zoneOfCode
  rw [if_neg (by omega), heatPartOfCode_none (by omega)]
  rfl

theorem fanOfCode_none {n : Nat} (h : 3 < n) : fanOfCode n = none := by
  match n, h with
  | _ + 4, _ => rfl

theorem seatOfCode_none {n : Nat} (h : 1 < n) : seatOfCode n = none := by
  match n, h with
  | _ + 2, _ => rfl

theorem cellOfCode_isSome (n : Nat) : (cellOfCode n).isSome = true ↔ 12 ≤ n ∧ n ≤ 15 := by
  constructor
  · intro h
    unfold cellOfCode at h
    split at h
    all_goals first | omega | cases h
  · rintro ⟨hl, hu⟩
    obtain rfl | rfl | rfl | rfl : n = 12 ∨ n = 13 ∨ n = 14 ∨ n = 15 := by omega
    all_goals rfl

theorem cellOfCode_none {n : Nat} (h : n < 12 ∨ 15 < n) : cellOfCode n = none := by
  rw [← Option.isNone_iff_eq_none, ← Option.not_isSome, Bool.not_eq_true', Bool.eq_false_iff, Ne, cellOfCode_isSome]
  omega

/-- The seat that a SET SUPPORT's record names. -/
theorem supportSeat_eq (m : Master) (x c : Byte) (v : Half) : supportSeat x c = targetSeat (.setSupport m x c v) := by
  unfold supportSeat targetSeat
  simp only [cellOfCode_isSome]

/-! ## Refusals -/

theorem atCursor_none (m : Master) (seat : Byte) (f : Seat → State → State × ResultCode) (s : State) (h : 1 < seat.toNat) :
    atCursor m seat f s = refuse .badField s := by
  unfold atCursor
  rw [seatOfCode_none h]

theorem atCursor_some {m : Master} {seat : Byte} {x : Seat} (f : Seat → State → State × ResultCode) (s : State)
    (h : seatOfCode seat.toNat = some x) : atCursor m seat f s = if s.mayWrite m x.region then f x s else refuse .denied s := by
  unfold atCursor
  rw [h]

/-- A program command whose master lacks the right. -/
theorem atCursor_denied {m : Master} {seat : Byte} {r : Region} {s : State} (f : Seat → State → State × ResultCode)
    (hr : r ∈ ((seatOfCode seat.toNat).map Seat.region).toList) (h : s.mayWrite m r = false) :
    atCursor m seat f s = refuse .denied s := by
  rw [Option.mem_toList, Option.map_eq_some_iff] at hr
  obtain ⟨x, hx, rfl⟩ := hr
  rw [atCursor_some f s hx, if_neg (by simp [h])]

/-- A command of one region whose master lacks the right. -/
theorem ite_denied {b : Bool} {a : State × ResultCode} {s : State} (h : b = false) :
    (if b = true then a else refuse .denied s) = refuse .denied s := if_neg (by simp [h])

theorem namesNothing_refused (i : Instr) (m : Master) (code : Byte) (data : List Byte) (s : State)
    (hi : writeFrameOf i = some (m, code, data)) (h : s.onBus) (hn : namesNothing i = true) :
    exec i s = .next (s.recorded m code (targetSeat i) .badField) := by
  cases i with
  | setZone m z l =>
    cases hi
    refine taken_refused h (congrArg (recordResult _ _ _) ?_)
    unfold ownSetZone
    rw [zoneOfCode_none (by simpa [namesNothing] using hn)]
  | setFan m f l =>
    cases hi
    refine taken_refused h (congrArg (recordResult _ _ _) ?_)
    unfold ownSetFan
    rw [fanOfCode_none (by simpa [namesNothing] using hn)]
  | setSupport m x c v =>
    cases hi
    rw [← supportSeat_eq]
    refine taken_refused h (congrArg (recordResult _ _ _) ?_)
    simp only [namesNothing, Bool.or_eq_true, decide_eq_true_eq] at hn
    unfold ownSetSupport
    rcases hn with (hx | hc) | hc
    · rw [seatOfCode_none hx]
    · rw [cellOfCode_none (.inl hc)]
      cases seatOfCode x.toNat <;> rfl
    · rw [cellOfCode_none (.inr hc)]
      cases seatOfCode x.toNat <;> rfl
  | startProgram | adjustProgram | pause | resume | stopProgram =>
    cases hi
    refine taken_refused h ?_
    exact congrArg (recordResult _ _ _) (atCursor_none _ _ _ _ (by simpa [namesNothing] using hn))
  | _ => cases hn

theorem write_denied (i : Instr) (m : Master) (code : Byte) (data : List Byte) (r : Region) (s : State)
    (hi : writeFrameOf i = some (m, code, data)) (h : s.onBus) (hr : r ∈ writeRegions i) (hw : s.mayWrite m r = false) :
    exec i s = .next (s.recorded m code (targetSeat i) .denied) := by
  cases i with
  | setZone m z l =>
    cases hi
    simp only [writeRegions, Option.mem_toList, Option.map_eq_some_iff] at hr
    obtain ⟨y, hy, rfl⟩ := hr
    refine taken_refused h (congrArg (recordResult _ _ _) ?_)
    unfold ownSetZone
    rw [hy]
    exact ite_denied hw
  | setFan m f l =>
    cases hi
    simp only [writeRegions, Option.mem_toList, Option.map_eq_some_iff] at hr
    obtain ⟨y, hy, rfl⟩ := hr
    refine taken_refused h (congrArg (recordResult _ _ _) ?_)
    unfold ownSetFan
    rw [hy]
    exact ite_denied hw
  | setSupport m x c v =>
    cases hi
    rw [← supportSeat_eq]
    refine taken_refused h (congrArg (recordResult _ _ _) ?_)
    simp only [writeRegions] at hr
    split at hr
    · rename_i hc
      rw [Option.mem_toList, Option.map_eq_some_iff] at hr
      obtain ⟨y, hy, rfl⟩ := hr
      obtain ⟨k, hk⟩ := Option.isSome_iff_exists.1 hc
      unfold ownSetSupport
      rw [hy, hk]
      exact ite_denied hw
    · cases hr
  | startProgram | adjustProgram | pause | resume | stopProgram =>
    cases hi
    refine taken_refused h ?_
    exact congrArg (recordResult _ _ _) (atCursor_denied _ hr hw)
  | resetSeats m =>
    cases hi
    refine taken_refused h ?_
    refine congrArg (recordResult _ _ _) (if_neg ?_)
    simp only [writeRegions, List.mem_cons, List.not_mem_nil, or_false] at hr
    rw [Bool.and_eq_true]
    rintro ⟨hl, hr'⟩
    rcases hr with rfl | rfl
    · exact absurd (hl.symm.trans hw) (by simp)
    · exact absurd (hr'.symm.trans hw) (by simp)
  | setCeiling | writeStep | writeProgramEntry | writeParameter | clearDiagnostics | writeAccess =>
    cases hi
    cases List.mem_singleton.1 hr
    refine taken_refused h ?_
    exact congrArg (recordResult _ _ _) (ite_denied hw)
  | _ => cases hr

theorem read_denied (i : Instr) (m : Master) (code : Byte) (data : List Byte) (r : Region) (s : State)
    (hi : readFrameOf i = some (m, code, data)) (h : s.onBus) (hr : readRegion i = some r) (hw : s.mayRead m r = false) :
    exec i s = .next (s.responding m [2]) := by
  cases i with
  | readSeat m x p =>
    cases hi
    simp only [readRegion, Option.map_eq_some_iff] at hr
    obtain ⟨y, hy, rfl⟩ := hr
    refine taken_answer h ?_
    unfold answerReadSeat
    rw [hy]
    exact if_neg (ne_true_of_eq_false hw)
  | readBudget | readStep | readProgramEntry | readParameter | readDiagnostics | readAccess =>
    cases hi
    cases hr
    refine taken_answer h ?_
    exact if_neg (ne_true_of_eq_false hw)
  | _ => cases hr

/-- Settles O12: a refusal is the result's record alone, or its code alone. -/
theorem refusalsChangeNothing : Obligations.RefusalsChangeNothing :=
  ⟨namesNothing_refused, write_denied, read_denied⟩

end Sys2Proof.Machine
end
section
/-! PROOFS. Commands that make no report and run no pass: the store, the directory, the access table, the masks and pending sets, a
bit error, and ADJUST PROGRAM (O19, O26, O27, O31, O33, O34, O48). -/
namespace Sys2Proof.Machine

/-! ## Codes -/

/-- A comfort value brought down to its limit. -/
theorem clampResult_min (n v : Nat) : clampResult v (min n v) = if v ≤ n then ResultCode.ok else .clamped := by
  unfold clampResult
  by_cases h : v ≤ n
  · rw [if_pos (Nat.min_eq_right h), if_pos h]
  · rw [if_neg (by omega), if_neg h]

theorem masterOfCode_none {n : Nat} (h : 2 < n) : masterOfCode n = none := by
  match n, h with
  | _ + 3, _ => rfl

theorem regionOfCode_none {n : Nat} (h : 5 < n) : regionOfCode n = none := by
  match n, h with
  | _ + 6, _ => rfl

theorem rightOfCode_none {n : Nat} (h : 3 < n) : rightOfCode n = none := by
  match n, h with
  | _ + 4, _ => rfl

theorem rightOfCode_some {n : Nat} (h : n ≤ 3) : ∃ v, rightOfCode n = some v := by
  obtain rfl | rfl | rfl | rfl : n = 0 ∨ n = 1 ∨ n = 2 ∨ n = 3 := by omega
  all_goals exact ⟨_, rfl⟩

/-! ## The pattern store and the directory (spec/06 R116, R117, R126) -/

/-- The last-result record of a write command. -/
theorem recordResult_results (m : Master) (code : Byte) (x : Option Seat) (r : State × ResultCode) :
    (recordResult m code x r).results = r.1.results.set m ⟨r.2, some code, x⟩ := rfl

/-- Orders 4 to 6 of R116. -/
theorem badRecord_iff (d : StepData) : badRecord d = true ↔ d.vent &&& 0xF000 ≠ 0 ∨ d.fill &&& 0xF000 ≠ 0 ∨ 1 < d.nextMode.toNat ∨
    (d.repeatMarker ≠ 0 ∧ (d.repeatCount = 0 ∨ 15 < d.repeatCount.toNat)) := by
  simp [badRecord, namesHoldCell, or_assoc]

section
variable {m : Master} {u : State} (h : u.mayWrite m .store = true)
include h

theorem ownWriteStep_eq (d : StepData) : ownWriteStep m d u =
    if d.index.toNat < 64 then refuse .readOnly u
    else if d.kind = 2 then (u.putRam d.index { content := none, weight := 0 }, .ok)
    else if d.kind = 1 then
      if badRecord d then refuse .badField u
      else (u.putRam d.index { content := some (carriedRecord d), weight := 0 },
        if d.target.toNat ≤ 400 then .ok else .clamped)
    else refuse .badField u := by
  unfold ownWriteStep
  rw [if_pos h, clampResult_min]
  simp only [inRom, decide_eq_true_eq]

theorem ownWriteEntry_eq (program validity first minutes : Byte) : ownWriteEntry m program validity first minutes u =
    if 15 < program.toNat then refuse .badField u
    else if program.toNat < 4 then refuse .readOnly u
    else if 1 < validity.toNat then refuse .badField u
    else (u.putEntry program.toNat ⟨validity == 0, first, max 1 (min 60 minutes.toNat)⟩,
      if max 1 (min 60 minutes.toNat) = minutes.toNat then .ok else .clamped) := by
  unfold ownWriteEntry
  rw [if_pos h, clampNat, Nat.min_comm]
  rfl

end

/-- An accepted WRITE STEP. -/
theorem writeStep_wrote {m : Master} {d : StepData} {s : State} {c : Content} {r : ResultCode} (h : s.onBus) (hs : s.stored)
    (e : ownWriteStep m d { s with bus := .idle } = (State.putRam { s with bus := .idle } d.index ⟨c, 0⟩, r)) :
    ∃ t, exec (.writeStep m d) s = .next t ∧ t.ramRecord d.index = ⟨c, 0⟩ ∧
      (∀ i, i ≠ d.index → t.ramRecord i = s.ramRecord i) ∧ { t with ram := s.ram } = s.recorded m 0x30 none r := by
  have effect : takeWriteStep m d { s with bus := .idle } =
      recordResult m 0x30 none (State.putRam { s with bus := .idle } d.index ⟨c, 0⟩, r) := congrArg (recordResult _ _ _) e
  refine ⟨_, taken_write h _ (by rw [effect]; exact h.1.2.1) (by rw [effect]; exact h.1.2.2), ?_⟩
  rw [effect]
  exact ⟨ramRecord_putRam s _ _ hs.1, fun i hi => ramRecord_putRam_other s _ i _ hs.1 hi, rfl⟩

/-- Settles O26: the orders of R116 and R126, branch by branch. -/
theorem storeWritesAreExact : Obligations.StoreWritesAreExact := by
  refine ⟨fun m d s h hs hw => ?_, fun m p v f n s h hs hw => ?_⟩
  · have own := ownWriteStep_eq (u := { s with bus := .idle }) hw d
    have refused {r : ResultCode} (e : ownWriteStep m d { s with bus := .idle } = refuse r { s with bus := .idle }) :
        exec (.writeStep m d) s = .next (s.recorded m 0x30 none r) := taken_refused h (congrArg (recordResult _ _ _) e)
    have two : (2 : Byte) ≠ 1 := by decide
    refine ⟨fun hi => refused ?_, fun hi h1 h2 => refused ?_, fun hi h1 hb => refused ?_, fun hi h2 => writeStep_wrote h hs ?_,
      fun hi h1 hb => writeStep_wrote h hs ?_⟩
    · rw [own, if_pos hi]
    · rw [own, if_neg (by omega), if_neg h2, if_neg h1]
    · rw [own, if_neg (by omega), if_neg (by rw [h1]; exact two.symm), if_pos h1, if_pos ((badRecord_iff d).2 hb)]
    · rw [own, if_neg (by omega), if_pos h2]
    · rw [own, if_neg (by omega), if_neg (by rw [h1]; exact two.symm), if_pos h1, if_neg (fun k => hb ((badRecord_iff d).1 k))]
      rfl
  · have own := ownWriteEntry_eq (u := { s with bus := .idle }) hw p v f n
    have refused {r : ResultCode} (e : ownWriteEntry m p v f n { s with bus := .idle } = refuse r { s with bus := .idle }) :
        exec (.writeProgramEntry m p v f n) s = .next (s.recorded m 0x31 none r) :=
      taken_refused h (congrArg (recordResult _ _ _) e)
    refine ⟨fun hp => refused ?_, fun hp => refused ?_, fun hl hu hv => refused ?_, fun hl hu hv => ?_⟩
    · rw [own, if_pos hp]
    · rw [own, if_neg (by omega), if_pos (by omega)]
    · rw [own, if_neg (by omega), if_neg (by omega), if_pos hv]
    · rw [if_neg (by omega), if_neg (by omega), if_neg (by omega)] at own
      have effect := congrArg (recordResult m 0x31 none) own
      refine ⟨_, taken_write h (takeWriteEntry m p v f n) (by unfold takeWriteEntry; rw [effect]; exact h.1.2.1)
        (by unfold takeWriteEntry; rw [effect]; exact h.1.2.2), ?_⟩
      unfold takeWriteEntry
      rw [effect]
      exact ⟨dirEntry_putEntry s _ _ hs.2.1 hl, fun k hk => dirEntry_putEntry_other s _ k _ hs.2.1 hk, rfl⟩

/-- Settles O48: a bit error is one record's write. -/
theorem bitErrorAddsWeight : Obligations.BitErrorAddsWeight := by
  intro i s h hs
  have rom (hi : i.toNat < 64) : disturb i s = s := if_pos (by simpa [inRom] using hi)
  have ram (hi : 64 ≤ i.toNat) : disturb i s = s.putRam i { s.ramRecord i with weight := (s.ramRecord i).weight + 1 } :=
    if_neg (by simpa [inRom] using hi)
  refine ⟨fun hi => ?_, fun hi => ⟨_, taken_quiet (disturb i) s h (by rw [ram hi]; exact h.2.1) (by rw [ram hi]; exact h.2.2), ?_⟩⟩
  · exact (taken_quiet (disturb i) s h (by rw [rom hi]; exact h.2.1) (by rw [rom hi]; exact h.2.2)).trans
      (congrArg Host.Outcome.next (rom hi))
  · rw [ram hi]
    exact ⟨ramRecord_putRam s i _ hs.1, fun k hk => ramRecord_putRam_other s i k _ hs.1 hk, rfl⟩

/-! ## The access table (spec/09 R179) -/

/-- Settles O31: the three codes, the one right that is read-only, and the write. -/
theorem writeAccessStores : Obligations.WriteAccessStores := by
  intro m k r v s h hw
  have own : ownWriteAccess m k r v { s with bus := .idle } =
      match masterOfCode k.toNat, regionOfCode r.toNat, rightOfCode v.toNat with
      | some who, some r, some v =>
        if who = .gateway ∧ r = .access then refuse .readOnly { s with bus := .idle }
        else (storeRight who r v { s with bus := .idle }, .ok)
      | _, _, _ => refuse .badField { s with bus := .idle } := if_pos hw
  refine ⟨fun hn => taken_refused h (congrArg (recordResult _ _ _) (own.trans ?_)),
    fun hk hr hv => taken_refused h (congrArg (recordResult _ _ _) (own.trans ?_)), fun who region right hk hr hv hx => ?_⟩
  · rcases hn with hk | hr | hv
    · rw [masterOfCode_none hk]
    · rw [regionOfCode_none hr]
      cases masterOfCode k.toNat <;> rfl
    · rw [rightOfCode_none hv]
      cases masterOfCode k.toNat <;> cases regionOfCode r.toNat <;> rfl
  · obtain ⟨right, e⟩ := rightOfCode_some hv
    subst hk hr
    rw [e] <;> rfl
  · rw [hk, hr, hv] at own
    have effect := congrArg (recordResult m 0x50 none) (own.trans (if_neg hx))
    refine (taken_write h (takeWriteAccess m k r v) (by unfold takeWriteAccess; rw [effect]; exact h.1.2.1)
      (by unfold takeWriteAccess; rw [effect]; exact h.1.2.2)).trans (congrArg Host.Outcome.next effect)

/-! ## Masks and pending sets (spec/10 R186 to R188) -/

/-- The bits from 13 up are clear exactly in a mask below 8192. -/
theorem mask_and_eq_zero (k : Half) : k &&& 0xE000 = 0 ↔ k.toNat < 8192 := by
  constructor
  · intro h
    refine Nat.lt_pow_two_of_testBit (n := 13) _ fun i hi => ?_
    by_cases hb : i < 16
    · have e : (k &&& 0xE000).getLsbD i = false := by rw [h]; simp
      have one : ∀ j, j < 16 → 13 ≤ j → (0xE000 : Half).getLsbD j = true := by decide
      rw [BitVec.getLsbD_and, one i hb hi, Bool.and_true] at e
      exact e
    · exact BitVec.getLsbD_of_ge k i (by omega)
  · intro h
    refine BitVec.eq_of_getLsbD_eq fun i hi => ?_
    rw [BitVec.getLsbD_and]
    by_cases hb : i < 13
    · have zero : ∀ j, j < 13 → (0xE000 : Half).getLsbD j = false := by decide
      rw [zero i hb]
      simp
    · have zero : k.getLsbD i = false :=
        Nat.testBit_lt_two_pow (Nat.lt_of_lt_of_le h (Nat.pow_le_pow_right (n := 2) (by omega) (by omega : 13 ≤ i)))
      rw [zero]
      simp

/-- Settles O33: the mask is judged by its bits, and stored with its line. -/
theorem setNoticeMaskReplaces : Obligations.SetNoticeMaskReplaces := by
  intro m mask s h
  refine ⟨fun hm => ?_, fun hm => taken_refused h (congrArg (recordResult _ _ _) (if_neg ?_))⟩
  · have effect : takeSetMask m mask { s with bus := .idle } =
        recordResult m 0x60 none (storeMask m mask { s with bus := .idle }, .ok) :=
      congrArg (recordResult _ _ _) (if_pos ((mask_and_eq_zero mask).2 hm))
    exact (taken_write h (takeSetMask m mask) (by rw [effect]; exact h.1.2.1) (by rw [effect]; exact h.1.2.2)).trans
      (congrArg Host.Outcome.next effect)
  · rw [mask_and_eq_zero]
    omega

/-- In a set in order, pairs of one rank are one pair. -/
theorem eq_of_rank_eq {l : List Notice} (h : ranksRise l) {p q : Notice} (hp : p ∈ l) (hq : q ∈ l) (e : p.rank = q.rank) :
    p = q := by
  induction l with
  | nil => cases hp
  | cons n l ih =>
    obtain ⟨low, rise⟩ := h
    rcases List.mem_cons.1 hp with hp | hp <;> rcases List.mem_cons.1 hq with hq | hq
    · rw [hp, hq]
    · exact absurd (low q hq) (by rw [← hp]; omega)
    · exact absurd (low p hp) (by rw [← hq]; omega)
    · exact ih rise hp hq

/-- The first pair of a set in order that a test lets through has the least rank of them. -/
theorem find_least {l : List Notice} (h : ranksRise l) (f : Notice → Bool) {n : Notice} (hn : n ∈ l) (hf : f n = true)
    (least : ∀ p ∈ l, f p = true → n.rank ≤ p.rank) : l.find? f = some n := by
  induction l with
  | nil => cases hn
  | cons q l ih =>
    obtain ⟨low, rise⟩ := h
    rcases List.mem_cons.1 hn with rfl | hn
    · rw [List.find?_cons_of_pos hf]
    · have no : ¬ f q = true := fun k => absurd (least q (.head _) k) (by have := low n hn; omega)
      rw [List.find?_cons_of_neg no]
      exact ih rise hn fun p hp => least p (.tail _ hp)

theorem answerTakeNotice_none {m : Master} {u : State} (h : (u.notices.get m).chosen = none) :
    answerTakeNotice m u = (u, [0, 0]) := by
  unfold answerTakeNotice
  rw [h] <;> rfl

theorem answerTakeNotice_some {m : Master} {n : Notice} {u : State} (h : (u.notices.get m).chosen = some n) :
    answerTakeNotice m u = (removeNotice m n u, 0 :: noticeBytes n) := by
  unfold answerTakeNotice
  rw [h] <;> rfl

/-- Settles O34: the pair of the least rank is the first unmasked one, and leaves the set alone. -/
theorem takeNoticeTakes : Obligations.TakeNoticeTakes := by
  intro m s h sound
  obtain ⟨-, rise⟩ := sound m
  refine ⟨fun all => ?_, fun n hn hu least => ?_⟩
  · refine taken_answer h ?_
    have none : (s.notices.get m).chosen = none := by
      refine List.find?_eq_none.2 fun n hn => ?_
      simpa [masked] using all n hn
    exact answerTakeNotice_none (u := { s with bus := .idle }) none
  · have chosen : (s.notices.get m).chosen = some n :=
      find_least rise _ hn (by simpa [masked] using hu) fun p hp hf => least p hp (by simpa [masked] using hf)
    have left : (s.notices.get m).pending.filter (fun p => p.rank != n.rank) =
        (s.notices.get m).pending.filter fun p => decide (p ≠ n) := by
      refine List.filter_congr fun p hp => ?_
      rw [Bool.eq_iff_iff, bne_iff_ne, decide_eq_true_eq]
      exact not_congr ⟨eq_of_rank_eq rise hp hn, fun e => congrArg _ e⟩
    have box : NoticeBox.without n (s.notices.get m) =
        { pending := (s.notices.get m).pending.filter fun p => decide (p ≠ n), mask := (s.notices.get m).mask
          line := ((s.notices.get m).pending.filter fun p => decide (p ≠ n)).any fun p =>
            !(s.notices.get m).mask.getLsbD p.kind.bit } := by
      unfold NoticeBox.without NoticeBox.judged
      rw [left]
      rfl
    have answered : answerTakeNotice m { s with bus := .idle } =
        (removeNotice m n { s with bus := .idle }, 0 :: noticeBytes n) :=
      answerTakeNotice_some (u := { s with bus := .idle }) chosen
    have row : readRow m (answerTakeNotice m) s =
        ({ s with notices := s.notices.set m (NoticeBox.without n (s.notices.get m)) } : State).responding m
          (0 :: noticeBytes n) := by
      rw [readRow_onBus m _ s h, answered]
      rfl
    rw [box] at row
    exact (taken_quiet _ s h.1 (by rw [row]; exact h.1.2.1) (by rw [row]; exact h.1.2.2)).trans (congrArg Host.Outcome.next row)

end Sys2Proof.Machine
end
section
/-! PROOFS. ADJUST PROGRAM, and the reads with the bytes that they answer (O19, O24, O27). -/
namespace Sys2Proof.Machine

/-! ## Updates that commute -/

/-- The state with other last-result records. -/
def State.withResults (s : State) (r : PerMaster LastResult) : State := { s with results := r }

theorem deliver_results (s : State) (n : Notice) (b : Bool) (m : Master) (r : PerMaster LastResult) :
    (s.withResults r).deliver n b m = (s.deliver n b m).withResults r := by cases b <;> rfl

/-- A raise does not look at the last-result records. -/
theorem raiseSeat_results (k : NoticeKind) (x : Seat) (d : Detail) (e : Option Master) (s : State) (r : PerMaster LastResult) :
    raiseSeat k x d e (s.withResults r) = (raiseSeat k x d e s).withResults r := by
  unfold raiseSeat
  dsimp only
  rw [deliver_results, deliver_results, deliver_results]
  rfl

/-- The record of a command that ends with a raise. -/
theorem recordResult_raise (m : Master) (code : Byte) (y : Option Seat) (k : NoticeKind) (x : Seat) (d : Detail) (e : Option Master)
    (u : State) (c : ResultCode) :
    recordResult m code y (raiseSeat k x d e u, c) = raiseSeat k x d e (recordResult m code y (u, c)) := by
  have still : (raiseSeat k x d e u).results = u.results := by rw [raiseSeat_touches]
  refine Eq.trans ?_ (raiseSeat_results k x d e u (u.results.set m ⟨c, some code, y⟩)).symm
  show (raiseSeat k x d e u).withResults ((raiseSeat k x d e u).results.set m _) = _
  rw [still]

theorem modCursor_modCursor (s : State) (x : Seat) (f g : Cursor → Cursor) :
    (s.modCursor x f).modCursor x g = s.modCursor x fun c => g (f c) := by cases x <;> rfl

theorem reports_raiseSeat (k : NoticeKind) (x : Seat) (d : Detail) (e : Option Master) (s : State) :
    (raiseSeat k x d e s).reports = s.reports ∧ (raiseSeat k x d e s).releases = s.releases := by
  rw [raiseSeat_touches]
  exact ⟨rfl, rfl⟩

/-! ## ADJUST PROGRAM (spec/07 R153) -/

/-- Settles O19: the values held already change nothing, and any others are stored with the origin and CHANGED. -/
theorem adjustProgramStores : Obligations.AdjustProgramStores := by
  intro m x intensity speed s h hw i v code r
  have hi : clampNat 1 5 intensity.toNat = i := by rw [clampNat, Nat.min_comm]
  have hv : clampNat 1 3 speed.toNat = v := by rw [clampNat, Nat.min_comm]
  have own : adjustAt m intensity speed x { s with bus := .idle } =
      if code = .ok ∧ (s.cursor x).intensity = i ∧ (s.cursor x).speed = v then ({ s with bus := .idle }, code)
      else (raiseSeat .changed x (.changed .cursor) (some m) (State.modCursor { s with bus := .idle } x fun c =>
        { c with intensity := i, speed := v, origin := m.origin }), code) := by
    unfold adjustAt markCursor raiseChanged
    rw [hi, hv]
    dsimp only
    rw [modCursor_modCursor]
    rfl
  have effect : takeAdjustProgram m (byteOf (seatCode x)) intensity speed { s with bus := .idle } =
      recordResult m 0x14 (some x) (adjustAt m intensity speed x { s with bus := .idle }) := by
    unfold takeAdjustProgram
    rw [seatOfCode_seatCode, atCursor_some _ _ (seatOfCode_seatCode x)]
    exact congrArg (recordResult _ _ _) (if_pos hw)
  by_cases held : code = .ok ∧ (s.cursor x).intensity = i ∧ (s.cursor x).speed = v
  · rw [if_pos held] at own ⊢
    rw [own] at effect
    exact (taken_write h (takeAdjustProgram m _ intensity speed) (by rw [effect]; exact h.1.2.1)
      (by rw [effect]; exact h.1.2.2)).trans (congrArg Host.Outcome.next effect)
  · rw [if_neg held] at own ⊢
    rw [own] at effect
    refine (taken_write h (takeAdjustProgram m _ intensity speed)
      (by rw [effect]; exact (reports_raiseSeat _ _ _ _ _).1.trans h.1.2.1)
      (by rw [effect]; exact (reports_raiseSeat _ _ _ _ _).2.trans h.1.2.2)).trans (congrArg Host.Outcome.next ?_)
    rw [effect, recordResult_raise]
    rfl

/-! ## READ STEP (spec/06 R119 to R121) -/

/-- The bytes of a record's fields. -/
theorem stepBytes_eq (f : StepFields) : stepBytes f = twoBytes f.vent.toNat ++ twoBytes f.fill.toNat ++ twoBytes f.target ++
    [byteOf f.dwell] ++ (match f.next with
      | none => [0]
      | some n => [1, n]) ++ match f.again with
      | none => [0]
      | some r => [1, r.target, byteOf r.count] := by
  unfold stepBytes
  cases f.next <;> cases f.again <;> rfl

/-- A READ STEP by a master with the right: the checked read, and its answer. -/
theorem exec_readStep {m : Master} {s : State} (i : Byte) (h : s.onBus) (hr : s.mayRead m .store = true) :
    exec (.readStep m i) s = .next ((readRecord i s).responding m (stepAnswer (s.storeAnswer i))) := by
  have row : readRow m (answerReadStep m i) s = (readRecord i s).responding m (stepAnswer (s.storeAnswer i)) := by
    rw [readRow_onBus m _ s h]
    have own : answerReadStep m i { s with bus := .idle } =
        ({ readRecord i s with bus := .idle }, stepAnswer (s.storeAnswer i)) := by
      rw [← readRecord_bus]
      exact if_pos hr
    rw [own]
    rfl
  refine (taken_quiet _ s h.1 ?_ ?_).trans (congrArg Host.Outcome.next row)
  all_goals
    rw [row, readRecord_touches]
  · exact h.1.2.1
  · exact h.1.2.2

theorem storeAnswer_rom {s : State} {i : StepIndex} (h : i.toNat < 64) : s.storeAnswer i = .rom (romRecord i.toNat) :=
  if_pos (by simpa [inRom] using h)

theorem storeAnswer_ram {s : State} {i : StepIndex} (h : 64 ≤ i.toNat) : s.storeAnswer i =
    if (s.ramRecord i).weight = 0 then .ram false (s.ramRecord i).content
    else if (s.ramRecord i).weight = 1 then .ram true (s.ramRecord i).content
    else .uncorrectable := if_neg (by simpa [inRom] using h)

theorem readRecord_rom {s : State} {i : StepIndex} {f : StepFields} (h : s.storeAnswer i = .rom f) : readRecord i s = s := by
  unfold readRecord
  rw [h]

theorem readRecord_ram {s : State} {i : StepIndex} {b : Bool} {c : Content} (h : s.storeAnswer i = .ram b c) :
    readRecord i s = if b then correctRecord i s else s := by
  unfold readRecord
  rw [h]
  cases b <;> rfl

theorem readRecord_failed {s : State} {i : StepIndex} (h : s.storeAnswer i = .uncorrectable) : readRecord i s = failRead i s := by
  unfold readRecord
  rw [h]

/-- Settles O27: the range and the weight give the answer, the answer what the read changes. -/
theorem readStepChecks : Obligations.ReadStepChecks := by
  intro m i s h hr fields content
  have bytes (f : StepFields) : 1 :: stepBytes f = fields f := by rw [stepBytes_eq] <;> rfl
  have stored (b : Bool) (c : Content) : stepAnswer (.ram b c) = [0, 1, firstOr !b] ++ content c := by
    cases c with
    | none => rfl
    | some f =>
      show [0, 1, firstOr !b] ++ 1 :: stepBytes f = _
      rw [bytes]
  rw [exec_readStep i h hr]
  refine ⟨fun hi => ?_, fun hi hw => ?_, fun hi hw => ?_, fun hi hw => ?_⟩
  · have e := storeAnswer_rom (s := s) hi
    rw [readRecord_rom e, e]
    show Host.Outcome.next (s.responding m ([0, 0] ++ 1 :: stepBytes _)) = _
    rw [bytes]
  · have e := storeAnswer_ram (s := s) hi
    rw [if_pos hw] at e
    rw [readRecord_ram e, e, stored]
    rfl
  · have e := storeAnswer_ram (s := s) hi
    rw [if_neg (by omega), if_pos hw] at e
    rw [readRecord_ram e, e, stored]
    rfl
  · have e := storeAnswer_ram (s := s) hi
    rw [if_neg (by omega), if_neg (by omega)] at e
    rw [readRecord_failed e, e]
    rfl

/-! ## The reads that change nothing (O24) -/

theorem answerReadSeat_eq {m : Master} {x : Seat} {u : State} (part : Byte) (hr : u.mayRead m x.region = true) :
    answerReadSeat m (byteOf (seatCode x)) part u = (u, if part.toNat ≤ 3 then 0 :: seatPart u x part.toNat else [6]) := by
  unfold answerReadSeat
  rw [seatOfCode_seatCode]
  dsimp only
  rw [if_pos hr]
  by_cases hp : part.toNat ≤ 3
  · rw [if_neg (by omega), if_pos hp]
    rfl
  · rw [if_pos (by omega), if_neg hp]
    rfl

/-- The two parts of a read, by the byte that names one. -/
theorem part_cases {α : Type} (part : Byte) (a b c : α) (f : Nat → α) (h0 : f 0 = a) (h1 : f 1 = b) :
    (if 1 < part.toNat then c else f part.toNat) = if part = 0 then a else if part = 1 then b else c := by
  by_cases hz : part = 0
  · subst hz
    exact h0
  · by_cases ho : part = 1
    · subst ho
      exact h1
    · have hz' : part.toNat ≠ 0 := fun e => hz (BitVec.eq_of_toNat_eq e)
      have ho' : part.toNat ≠ 1 := fun e => ho (BitVec.eq_of_toNat_eq e)
      rw [if_pos (by omega), if_neg hz, if_neg ho]

theorem answerReadBudget_eq {m : Master} {u : State} (part : Byte) (hr : u.mayRead m .budget = true) :
    answerReadBudget m part u =
      (u, if part = 0 then 0 :: ceilingPart u else if part = 1 then 0 :: resultPart u.budget.result else [6]) := by
  unfold answerReadBudget
  have parts := part_cases part (0 :: ceilingPart u) (0 :: resultPart u.budget.result) [6] (fun n => 0 :: budgetPart u n) rfl rfl
  rw [if_pos hr, ← parts]
  split <;> rfl

theorem answerReadDiagnostics_eq {m : Master} {u : State} (part : Byte) (hr : u.mayRead m .config = true) :
    answerReadDiagnostics m part u =
      (u, if part = 0 then 0 :: storePart u.log else if part = 1 then 0 :: pneumaticPart u.pneu else [6]) := by
  unfold answerReadDiagnostics
  have parts := part_cases part (0 :: storePart u.log) (0 :: pneumaticPart u.pneu) [6] (fun n => 0 :: diagnosticsPart u n) rfl rfl
  rw [if_pos hr, ← parts]
  split <;> rfl

theorem lastResultAnswer_eq (r : LastResult) : lastResultAnswer r = [0, resultByte r.result] ++
    (match r.command with
      | none => [0]
      | some c => [1, c]) ++
    [(match r.seat with
      | some .left => 0
      | some .right => 1
      | none => 2 : Byte)] := by
  obtain ⟨c, k, x⟩ := r
  rcases k with _ | k <;> rcases x with _ | _ | _ <;> rfl

/-- Settles O24: each owner answers its fields and leaves the state. -/
theorem plainReadsAnswer : Obligations.PlainReadsAnswer := by
  refine ⟨fun m x part s h hr => taken_answer h (answerReadSeat_eq (u := { s with bus := .idle }) part hr),
    fun m seat part s h hs => taken_answer h ?_,
    fun m part s h hr => taken_answer h (answerReadBudget_eq (u := { s with bus := .idle }) part hr),
    fun m part s h hr => taken_answer h (answerReadDiagnostics_eq (u := { s with bus := .idle }) part hr),
    fun m s h => taken_answer h rfl, fun m s h => ?_, fun m program s h => ⟨fun hr => taken_answer h ?_, fun hr hp => taken_answer h ?_,
    fun hr hp => taken_answer h ?_⟩⟩
  · unfold answerReadSeat
    rw [seatOfCode_none hs] <;> rfl
  · refine (taken_answer h rfl).trans ?_
    exact congrArg (fun a => Host.Outcome.next (s.responding m a)) (lastResultAnswer_eq _)
  · exact if_neg (ne_true_of_eq_false hr)
  · exact (if_pos hr).trans (if_pos hp)
  · refine ((if_pos hr).trans (if_neg (by omega))).trans ?_
    simp only [entryAnswer, firstOr, decide_eq_true_eq]
    rfl

end Sys2Proof.Machine
end
section
/-! PROOFS. The fields of the reads, byte for byte (O25). -/
namespace Sys2Proof.Machine

/-- A cell is vented where a running operation covers it. -/
theorem ventedCells_getLsbD (l : List VentOp) (x : Seat) (k : Nat) :
    (ventedCells l x).getLsbD k = l.any fun v => v.owner.covers x && v.cells.getLsbD k := by
  have step (acc : CellSet) : (l.foldl (fun acc v => if v.owner.covers x then acc ||| v.cells else acc) acc).getLsbD k =
      (acc.getLsbD k || l.any fun v => v.owner.covers x && v.cells.getLsbD k) := by
    induction l generalizing acc with
    | nil => simp
    | cons v l ih =>
      rw [List.foldl_cons, ih, List.any_cons]
      cases v.owner.covers x <;> simp [Bool.or_assoc]
  unfold ventedCells
  rw [step]
  simp

/-- The holder fills the cell: it is FILLING, of the seat, and the cell is in its set. -/
def Pneumatic.fills (p : Pneumatic) (x : Seat) (k : Nat) : Bool :=
  match p.holder with
  | some h => h.p0.isSome && decide (h.entry.requester.seat = x) && h.entry.cells.getLsbD k
  | none => false

theorem filledCells_getLsbD (p : Pneumatic) (x : Seat) (k : Nat) : (filledCells p x).getLsbD k = p.fills x k := by
  unfold filledCells Pneumatic.fills
  cases p.holder with
  | none => simp
  | some h =>
    by_cases hx : h.entry.requester.seat = x <;> cases hp : h.p0.isSome <;> simp [Holder.seat, hx, hp]

/-- A valve's state: its cell filled, else vented, else held. -/
theorem valveByte_eq (p : Pneumatic) (x : Seat) (k : Nat) : valveByte (valveState p x k) =
    if p.fills x k then 1 else if p.vents.any fun v => v.owner.covers x && v.cells.getLsbD k then 2 else 0 := by
  unfold valveState
  rw [filledCells_getLsbD, ventedCells_getLsbD]
  split
  · rfl
  · split <;> rfl

theorem eligible_eq (p : Pneumatic) (e : Entry) :
    eligible p e = decide (ventedCells p.vents e.requester.seat &&& e.cells = 0) := by
  rw [Bool.eq_iff_iff]
  simp [eligible, overlap]

/-- Settles O25: the parts field by field, each coding value by value. -/
theorem readFieldsAreListed : Obligations.ReadFieldsAreListed := by
  intro m s h first maybe origin occupancy zoneState fanState cursorState status requester seatByte position p valve cells answers
  have optional' {α : Type} (f : α → List Byte) (o : Option α) : optional f o = maybe (o.map f) := by cases o <;> rfl
  have origin' : originByte = origin := by funext o; cases o <;> rfl
  have occupancy' : occupancyByte = occupancy := by funext o; cases o <;> rfl
  have zone' : zoneStateByte = zoneState := by funext o; cases o <;> rfl
  have fan' : fanStateByte = fanState := by funext o; cases o <;> rfl
  have cursor' : cursorStateByte = cursorState := by funext o; cases o <;> rfl
  have status' : statusByte = status := by funext o; cases o <;> rfl
  have requester' : requesterByte = requester := by funext r; rcases r with x | x <;> cases x <;> rfl
  have seat' : Machine.seatByte = seatByte := by funext x; cases x <;> rfl
  have position' : positionByte = position := by funext q; cases q <;> rfl
  have first' : firstOr = first := rfl
  have valve' (x : Seat) (k : Nat) : valveByte (valveState s.pneu x k) = valve x k := valveByte_eq s.pneu x k
  have seatRead {x : Seat} {part : Byte} {l : List Byte} (hr : s.mayRead m x.region = true) (hp : part.toNat ≤ 3)
      (e : seatPart { s with bus := .idle } x part.toNat = l) : answers (.readSeat m (byteOf (seatCode x)) part) l :=
    taken_answer h ((answerReadSeat_eq (u := { s with bus := .idle }) part hr).trans (congrArg (Prod.mk _) ((if_pos hp).trans (congrArg (List.cons 0) e))))
  refine ⟨fun x hr => ⟨seatRead hr (by decide) ?_, seatRead hr (by decide) ?_, seatRead hr (by decide) ?_, seatRead hr (by decide) ?_⟩,
    fun hr => ⟨taken_answer h ((answerReadBudget_eq (u := { s with bus := .idle }) 0 hr).trans (congrArg (Prod.mk _) (congrArg (List.cons 0) ?_))),
      taken_answer h ((answerReadBudget_eq (u := { s with bus := .idle }) 1 hr).trans (congrArg (Prod.mk _) (congrArg (List.cons 0) ?_)))⟩,
    fun hr => ⟨taken_answer h ((answerReadDiagnostics_eq (u := { s with bus := .idle }) 0 hr).trans (congrArg (Prod.mk _) (congrArg (List.cons 0) ?_))),
      taken_answer h ((answerReadDiagnostics_eq (u := { s with bus := .idle }) 1 hr).trans (congrArg (Prod.mk _) (congrArg (List.cons 0) ?_)))⟩⟩
  · show generalPart { s with bus := .idle } x = _
    unfold generalPart
    rw [occupancy', first']
    rfl
  · show heatingPart { s with bus := .idle } x = _
    unfold heatingPart seatZones zoneBytes
    rw [origin', zone', List.flatMap_map]
    simp only [optional']
    rfl
  · show airPart { s with bus := .idle } x = _
    unfold airPart seatFans fanBytes cellFields
    rw [origin', fan']
    have mark (c : HoldCell) : firstOr (!(s.regulator x).marks.get c) = if s.faultMark x c then 1 else 0 := by
      show firstOr (!s.faultMark x c) = _
      cases s.faultMark x c <;> rfl
    refine congrArg (_ ++ ·) (congrArg (List.flatMap · holdCells) (funext fun c => ?_))
    show twoBytes (s.setpoint x c).value ++ [origin (s.setpoint x c).origin, firstOr (!(s.regulator x).marks.get c), valveByte (valveState s.pneu x (cellNumber c))] = _
    rw [mark, valve']
  · show cursorPart { s with bus := .idle } x = _
    unfold cursorPart
    have phase : optional (fun p => [phaseByte p]) (if (s.cursor x).phase = .none then none else some (s.cursor x).phase) =
        (match (s.cursor x).phase with
          | .none => [0]
          | .vent => [1, 1]
          | .fillWait => [1, 2]
          | .filling => [1, 3]
          | .dwell => [1, 4]) := by cases (s.cursor x).phase <;> rfl
    have fault : optional (fun f => [faultByte f]) (if (s.cursor x).fault = .none then none else some (s.cursor x).fault) =
        (match (s.cursor x).fault with
          | .none => [0]
          | .store => [1, 1]
          | .blank => [1, 2]
          | .leak => [1, 3]
          | .overpressure => [1, 4]
          | .nest => [1, 5]
          | .loop => [1, 6]) := by cases (s.cursor x).fault <;> rfl
    rw [cursor', origin']
    refine Eq.trans ?_ (congr (congrArg (fun a b => [_] ++ a ++ _ ++ _ ++ _ ++ _ ++ b) phase) fault)
    rw [← optional', ← optional']
    rfl
  · show ceilingPart { s with bus := .idle } = _
    unfold ceilingPart
    show twoBytes s.budget.ceiling ++ optional _ s.budget.refresh ++ [bandByte s.supply.band, byteOf s.supply.reading] ++
      optional twoBytes (if s.supply.band = .normal then none else some s.bandCap) ++ _ ++ _ ++ _ ++ _ = _
    have band : [bandByte s.supply.band, byteOf s.supply.reading] ++
        optional twoBytes (if s.supply.band = .normal then none else some s.bandCap) =
        (match s.supply.band with
          | .normal => [0, byteOf s.supply.reading, 0]
          | .shed => [1, byteOf s.supply.reading, 1] ++ twoBytes s.shedCeiling
          | .stop => [2, byteOf s.supply.reading, 1, 0, 0]) := by
      unfold State.bandCap
      cases s.supply.band with
      | normal => rfl
      | shed => rfl
      | stop => exact congrArg (fun l => [2, byteOf s.supply.reading] ++ 1 :: l) (show twoBytes 0 = [0, 0] by decide)
    rw [List.append_assoc (_ ++ _) [bandByte _, _], band, optional']
    rfl
  · show resultPart s.budget.result = _
    unfold resultPart
    rw [status']
    rfl
  · show storePart s.log = _
    unfold storePart
    rw [optional', optional']
    cases s.log.flag <;> cases s.log.reported <;> rfl
  · show pneumaticPart p = _
    have holder : [fillStateByte p.fillState] ++ optional holderBytes p.holder =
        (match p.holder with
          | none => [0, 0]
          | some h =>
            [if h.p0.isSome then 2 else 1, 1, requester h.entry.requester] ++ twoBytes h.entry.cells.toNat ++
            twoBytes h.entry.target ++ [first h.entry.resumed] ++ maybe (h.p0.map twoBytes) ++
            [if h.p0.isSome then byteOf (min 255 (h.elapsed / 100)) else 0]) := by
      unfold Pneumatic.fillState
      cases p.holder with
      | none => rfl
      | some h =>
        show fillStateByte (if h.p0.isSome then .filling else .switching) :: 1 :: holderBytes h = _
        unfold holderBytes elapsedUnits
        rw [requester', optional', apply_ite fillStateByte, apply_ite byteOf]
        rfl
    have selector : selectorBytes p.selector =
        (match p.selector with
          | .atRest q => [position q]
          | .moving q left => [3, position q] ++ twoBytes left) := by
      cases p.selector <;> rw [selectorBytes, position']
    have entry : entryBytes p = fun e => [requester e.requester] ++ twoBytes e.cells.toNat ++ twoBytes e.target ++
        [first e.resumed, first (decide (ventedCells p.vents e.requester.seat &&& e.cells = 0))] := by
      funext e
      rw [← eligible_eq, ← requester']
      rfl
    have vent : ventBytes = fun v => (match v.owner with
        | .requester r => [requester r, seatByte r.seat]
        | .relief .left => [4, 0]
        | .relief .right => [5, 1]
        | .reset => [6, 2]) ++ twoBytes v.cells.toNat ++ twoBytes v.left := by
      funext v
      obtain ⟨owner, c, left⟩ := v
      rcases owner with (x | x) | x | _
      all_goals first | rfl | (cases x <;> rfl)
    have valves (x : Seat) : cellRange.map (fun k => valveByte (valveState p x k)) = cells.map (valve x) :=
      congrArg (List.map · cells) (funext (valve' x))
    unfold pneumaticPart
    rw [holder, selector, entry, vent, valves, valves, optional', seat']
    rfl

end Sys2Proof.Machine
end
section
/-! PROOFS. What follows a pass: the state after a command that ends in an allocation pass, and the pass of an air system at rest. -/
namespace Sys2Proof.Machine

/-! ## What a pass and its reports leave -/

/-- A zone that asks for nothing and holds nothing keeps its channel. -/
theorem Stirs.zone_unasked {P : Seat → Prop} {s t : State} (h : Stirs P s t) (z : ZoneId) (hr : (s.zone z).request = 0)
    (hg : (s.zone z).grant = 0) : t.zone z = s.zone z := by
  induction h with
  | pass _ ih =>
    rename_i t _
    have none_ : (allocate t.passInput).grantOf z = 0 := Nat.le_zero.mp (Nat.le_trans (grantOf_le t z) (Nat.le_of_eq (by rw [ih, hr])))
    rw [zone_passCore, none_, ih]
    exact (if_neg (by omega)).trans (by rw [← hg])
  | raised _ n reached m _ ih =>
    rw [deliver_touches]
    exact ih
  | read _ i ih =>
    rw [readRecord_touches]
    exact ih
  | same => rfl
  | air _ f _ ih => exact ih
  | reports _ l ih => exact ih
  | releases _ r ih => exact ih
  | cursor _ x _ f _ ih => exact ih
  | regulator _ x f _ ih => exact ih
  | zeroSetpoint _ x c ih => exact ih
  | underfill _ x ih => exact ih

/-- A fan that asks for nothing and is off keeps its channel. -/
theorem Stirs.fan_unasked {P : Seat → Prop} {s t : State} (h : Stirs P s t) (f : FanId) (hd : (s.fan f).demand = 0)
    (hg : (s.fan f).granted = 0) (hw : (s.fan f).tachWatch = none) : t.fan f = s.fan f := by
  induction h with
  | pass _ ih =>
    rename_i t _
    have none_ : (allocate t.passInput).levelOf f = 0 := Nat.le_zero.mp (Nat.le_trans (levelOf_le t f) (Nat.le_of_eq (by rw [ih, hd])))
    rw [fan_passCore, none_, ih]
    show { s.fan f with granted := 0, tachWatch := none } = _
    rw [← hg, ← hw]
  | raised _ n reached m _ ih =>
    rw [deliver_touches]
    exact ih
  | read _ i ih =>
    rw [readRecord_touches]
    exact ih
  | same => rfl
  | air _ f _ ih => exact ih
  | reports _ l ih => exact ih
  | releases _ r ih => exact ih
  | cursor _ x _ f _ ih => exact ih
  | regulator _ x f _ ih => exact ih
  | zeroSetpoint _ x c ih => exact ih
  | underfill _ x ih => exact ih

/-- A zone within its request stays so (spec/02 R28). -/
theorem Stirs.zone_within {P : Seat → Prop} {s t : State} (h : Stirs P s t) (z : ZoneId) (hz : (s.zone z).grant ≤ (s.zone z).request) :
    (t.zone z).grant ≤ (t.zone z).request := by
  induction h with
  | pass _ ih =>
    rw [zone_passCore, takeGrant_grant, takeGrant_request]
    exact grantOf_le _ z
  | raised _ n reached m _ ih =>
    rw [deliver_touches]
    exact ih
  | read _ i ih =>
    rw [readRecord_touches]
    exact ih
  | same => exact hz
  | air _ f _ ih => exact ih
  | reports _ l ih => exact ih
  | releases _ r ih => exact ih
  | cursor _ x _ f _ ih => exact ih
  | regulator _ x f _ ih => exact ih
  | zeroSetpoint _ x c ih => exact ih
  | underfill _ x ih => exact ih

/-- The allocation in force is STARVED at a C_eff within the overhead, and fits C_eff above it (spec/04 R71, R75). -/
def State.allocated (s : State) : Prop :=
  (s.budget.cEff ≤ s.overhead → s.budget.result.status = .starved) ∧ (s.overhead < s.budget.cEff → s.budget.result.total ≤ s.budget.cEff)

theorem passCore_allocated (s : State) : (passCore s).allocated := by
  obtain ⟨result, cEff⟩ := budget_passCore s
  have overhead : (passCore s).overhead = s.overhead := by rw [passCore_touches] <;> rfl
  unfold State.allocated
  rw [result, cEff, overhead]
  refine ⟨fun h => ?_, fun h => ?_⟩
  · rw [allocate_starved (p := s.passInput) h]
  · refine allocate_total_le s.passInput ?_
    rw [allocate_above s.passInput h]
    dsimp only
    split <;> decide

theorem Stirs.allocated {P : Seat → Prop} {s t : State} (h : Stirs P s t) (hs : s.allocated) : t.allocated := by
  induction h with
  | pass _ ih => exact passCore_allocated _
  | raised _ n reached m _ ih =>
    rw [deliver_touches]
    exact ih
  | read _ i ih =>
    rw [readRecord_touches]
    exact ih
  | same => exact hs
  | air _ f _ ih => exact ih
  | reports _ l ih => exact ih
  | releases _ r ih => exact ih
  | cursor _ x _ f _ ih => exact ih
  | regulator _ x f _ ih => exact ih
  | zeroSetpoint _ x c ih => exact ih
  | underfill _ x ih => exact ih

/-- `t` follows `u` by a pass and what its reports lead to: it keeps the bystander, every pair of a kind that they do not raise, and
the zones and fans that are off and ask for nothing, and an allocation that fits. -/
structure Followed (u t : State) : Prop where
  bystander : t.bystander = u.bystander
  notices : ∀ k p, p ∈ (u.notices.get k).pending → p.kind.isReported = false → p ∈ (t.notices.get k).pending
  zones : ∀ z, (u.zone z).request = 0 → (u.zone z).grant = 0 → t.zone z = u.zone z
  fans : ∀ f, (u.fan f).demand = 0 → (u.fan f).granted = 0 → (u.fan f).tachWatch = none → t.fan f = u.fan f
  within : ∀ z, (u.zone z).grant ≤ (u.zone z).request → (t.zone z).grant ≤ (t.zone z).request
  allocated : u.allocated → t.allocated

theorem Stirs.followed {P : Seat → Prop} {u t : State} (h : Stirs P u t) : Followed u t :=
  ⟨h.bystander, fun k p => h.keeps_notice k p, h.zone_unasked, h.fan_unasked, h.zone_within, h.allocated⟩

theorem Followed.trans {s t u : State} (h : Followed s t) (k : Followed t u) : Followed s u where
  bystander := k.bystander.trans h.bystander
  notices m p hp hk := k.notices m p (h.notices m p hp hk) hk
  zones z hr hg := by
    have same := h.zones z hr hg
    exact (k.zones z (by rw [same, hr]) (by rw [same, hg])).trans same
  fans f hd hg hw := by
    have same := h.fans f hd hg hw
    exact (k.fans f (by rw [same, hd]) (by rw [same, hg]) (by rw [same, hw])).trans same
  within z hz := k.within z (h.within z hz)
  allocated ha := k.allocated (h.allocated ha)

theorem followed_passCore (u : State) : Followed u (passCore u) := (Stirs.pass (P := fun _ => True) (.same u)).followed

theorem followed_runPass (u : State) : Followed (passCore u) (runPass u) :=
  (stirs_takePermission (P := fun _ => True) (.same (passCore u))).followed

/-- A seat notice of a kind that the reports do not raise is still there. -/
theorem Followed.told {s v u t : State} {k : NoticeKind} {x : Seat} {d : Detail} {e : Option Master} (h : Followed u t)
    (hk : k.isReported = false) (hu : u.notices = (raiseSeat k x d e v).notices) (ha : v.access = s.access) : s.told t k x d e := by
  intro m hr he
  refine h.notices m _ ?_ hk
  rw [hu]
  refine raiseSeat_reaches v k x d e m ?_ he
  unfold State.mayRead
  rw [ha]
  exact hr

/-- Nothing that a selection or a report looks at has changed. -/
structure AirAlike (s u : State) : Prop where
  pneu : u.pneu = s.pneu
  reports : u.reports = s.reports
  releases : u.releases = s.releases

theorem AirAlike.trans {s t u : State} (h : AirAlike s t) (k : AirAlike t u) : AirAlike s u :=
  ⟨k.pneu.trans h.pneu, k.reports.trans h.reports, k.releases.trans h.releases⟩

theorem airAlike_raiseSeat (k : NoticeKind) (x : Seat) (d : Detail) (e : Option Master) (s : State) : AirAlike s (raiseSeat k x d e s) := by
  rw [raiseSeat_touches]
  exact ⟨rfl, rfl, rfl⟩

theorem airAlike_raiseDevice (k : NoticeKind) (d : Detail) (s : State) : AirAlike s (raiseDevice k d s) := by
  rw [raiseDevice_touches]
  exact ⟨rfl, rfl, rfl⟩

theorem airAlike_passCore (s : State) : AirAlike s (passCore s) := by
  rw [passCore_touches]
  exact ⟨rfl, rfl, rfl⟩

/-! ## The pass of an air system at rest -/

theorem airQuiet_iff (s : State) : s.airQuiet = true ↔ s.pneu.queue = [] ∧ s.pneu.holder = none ∧ s.reports = [] := by
  simp [State.airQuiet, and_assoc]

theorem AirAlike.quiet {s u : State} (h : AirAlike s u) (hq : s.airQuiet = true) : u.airQuiet = true := by
  rw [airQuiet_iff] at hq ⊢
  rw [h.pneu, h.reports]
  exact hq

/-- A pass that the pump is not wanted in does not permit it (spec/04 R72). -/
theorem permitted_of_quiet {s : State} (hq : s.airQuiet = true) : (allocate s.passInput).permitted = false := by
  obtain ⟨queue, holder, -⟩ := (airQuiet_iff s).mp hq
  have demand : s.passInput.demand = false := by
    show s.pumpDemand = false
    rw [State.pumpDemand, queue, holder]
    rfl
  unfold allocate
  split
  · rfl
  · show (s.passInput.demand && _) = false
    rw [demand]
    rfl

/-- A pass that refuses the pump moves no air where no grant is held. -/
theorem runPass_refused {s : State} (hp : (allocate s.passInput).permitted = false) (hh : s.pneu.holder = none) :
    runPass s = passCore s := by
  have refused : (passCore s).budget.result.permitted = false := by rw [(budget_passCore s).1, hp]
  refine (takePermission_refused _ refused).trans ?_
  rw [passCore_pneu, hh]

theorem noteLimited_withResults (was : PassStatus) (a : Allocation) (s : State) (r : PerMaster LastResult) :
    noteLimited was a (s.withResults r) = (noteLimited was a s).withResults r := by
  unfold noteLimited
  split
  · exact deliver_results s _ true .gateway r
  · rfl

theorem passCore_withResults (s : State) (r : PerMaster LastResult) : passCore (s.withResults r) = (passCore s).withResults r :=
  congrArg (handOff (allocate s.passInput)) (noteLimited_withResults s.budget.result.status (allocate s.passInput)
    (s.modBudget fun b => { b with
      result := allocate s.passInput, peak := max b.peak (allocate s.passInput).total
      stepPeak := b.stepPeak.map (max · (allocate s.passInput).total) }) r)

theorem Pair.mk_congr {α : Type} {a b a' b' : α} (ha : a = a') (hb : b = b') : (⟨a, b⟩ : Pair α) = ⟨a', b'⟩ := by rw [ha, hb]

theorem PerSeat.mk_congr {α : Type} {a b a' b' : α} (ha : a = a') (hb : b = b') : (⟨a, b⟩ : PerSeat α) = ⟨a', b'⟩ := by rw [ha, hb]

theorem Five.mk_congr {α : Type} {a b c d e a' b' c' d' e' : α} (ha : a = a') (hb : b = b') (hc : c = c') (hd : d = d') (he : e = e') :
    (⟨a, b, c, d, e⟩ : Five α) = ⟨a', b', c', d', e'⟩ := by rw [ha, hb, hc, hd, he]

/-- A pass does not change what it takes in. -/
theorem passInput_passCore (s : State) : (passCore s).passInput = s.passInput := by
  have fans : ∀ f, ((passCore s).fan f).demand = (s.fan f).demand := fun f => by rw [fan_passCore]; rfl
  have zones : ∀ z, ((passCore s).zone z).request = (s.zone z).request := fun z => by rw [zone_passCore, takeGrant_request]
  have zonesOf (x : Seat) : ((passCore s).zones.get x).map (·.request) = (s.zones.get x).map (·.request) :=
    Five.mk_congr (zones ⟨x, .cushion⟩) (zones ⟨x, .backrest⟩) (zones ⟨x, .neck⟩) (zones ⟨x, .legRest⟩) (zones ⟨x, .armrest⟩)
  have fansOf (x : Seat) : ((passCore s).fans.get x).map (·.demand) = (s.fans.get x).map (·.demand) :=
    Pair.mk_congr (fans ⟨x, .cushion⟩) (fans ⟨x, .backrest⟩)
  have both : (⟨(passCore s).zones.left.map (·.request), (passCore s).zones.right.map (·.request)⟩ : PerSeat (Five Nat)) =
      ⟨s.zones.left.map (·.request), s.zones.right.map (·.request)⟩ := PerSeat.mk_congr (zonesOf .left) (zonesOf .right)
  have pair : (⟨(passCore s).fans.left.map (·.demand), (passCore s).fans.right.map (·.demand)⟩ : PerSeat (Pair Nat)) =
      ⟨s.fans.left.map (·.demand), s.fans.right.map (·.demand)⟩ := PerSeat.mk_congr (fansOf .left) (fansOf .right)
  have ceiling := (budget_passCore s).2
  unfold State.passInput
  rw [both, pair, ceiling, passCore_touches]
  rfl

/-- The result of a pass is the allocation of the inputs as they then stand (spec/04 R70). -/
theorem result_passCore (s : State) : (passCore s).budget.result = allocate (passCore s).passInput := by
  rw [passInput_passCore, (budget_passCore s).1]

/-! ## Commands that end in a pass -/

/-- What a command that ends in the pass of `u` leaves: all that such a pass leaves, and where it refuses the
pump and no grant is held the pass itself. -/
structure PassedTo (s u t : State) : Prop where
  core : Followed (passCore u) t
  air : AirAlike s u
  still : (allocate u.passInput).permitted = false → u.pneu.holder = none → t = passCore u

theorem PassedTo.followed {s u t : State} (h : PassedTo s u t) : Followed u t := (followed_passCore u).trans h.core

theorem PassedTo.quiet {s u t : State} (h : PassedTo s u t) (hq : s.airQuiet = true) : t = passCore u := by
  have quiet := h.air.quiet hq
  exact h.still (permitted_of_quiet quiet) ((airQuiet_iff u).mp quiet).2.1

theorem PassedTo.result {s u t : State} (h : PassedTo s u t) (hq : s.airQuiet = true) : t.budget.result = allocate t.passInput := by
  rw [h.quiet hq, result_passCore]

/-- A zone that asks for nothing has nothing after a pass. -/
theorem PassedTo.zone_unasked {s u t : State} (h : PassedTo s u t) (z : ZoneId) (hr : (u.zone z).request = 0) :
    t.zone z = takeGrant 0 (u.zone z) := by
  have none_ : (allocate u.passInput).grantOf z = 0 := Nat.le_zero.mp (Nat.le_trans (grantOf_le u z) (Nat.le_of_eq (by rw [hr])))
  have passed : (passCore u).zone z = takeGrant 0 (u.zone z) := by rw [zone_passCore, none_]
  exact (h.core.zones z (by rw [passed, takeGrant_request, hr]) (by rw [passed, takeGrant_grant])).trans passed

/-- A fan that asks for nothing is off after a pass. -/
theorem PassedTo.fan_unasked {s u t : State} (h : PassedTo s u t) (f : FanId) (hd : (u.fan f).demand = 0) :
    t.fan f = setGranted 0 (u.fan f) := by
  have none_ : (allocate u.passInput).levelOf f = 0 := Nat.le_zero.mp (Nat.le_trans (levelOf_le u f) (Nat.le_of_eq (by rw [hd])))
  have passed : (passCore u).fan f = setGranted 0 (u.fan f) := by rw [fan_passCore, none_]
  exact (h.core.fans f (by rw [passed]; exact hd) (by rw [passed]; rfl) (by rw [passed]; rfl)).trans passed

theorem followed_settle (n : Nat) (s : State) : Followed s (settle n s) := (stirs_settle n s).followed

theorem taken_next (f : State → State) (s : State) (h : s.awake) : ∃ t, taken f s = .next t ∧ Followed (f s) t :=
  ⟨_, taken_awake f s h, ((stirs_settle reportBound (f s)).releases _).followed⟩

/-- An update that a pass may come before: it leaves the air system, the reports, the loads and the notices, and the bystander
before it determines the one after it. -/
structure Beside (g : State → State) : Prop where
  air : ∀ v, AirAlike v (g v)
  notices : ∀ v, (g v).notices = v.notices
  loads : ∀ v, (g v).zones = v.zones ∧ (g v).fans = v.fans
  allocated : ∀ v, (g v).allocated ↔ v.allocated
  bystander : ∀ v w, v.bystander = w.bystander → (g v).bystander = (g w).bystander

theorem Beside.zone {g : State → State} (hg : Beside g) (v : State) (z : ZoneId) : (g v).zone z = v.zone z := by
  unfold State.zone
  rw [(hg.loads v).1]

theorem Beside.fan {g : State → State} (hg : Beside g) (v : State) (f : FanId) : (g v).fan f = v.fan f := by
  unfold State.fan
  rw [(hg.loads v).2]

theorem Followed.beside {u t : State} {g : State → State} (hg : Beside g) (h : Followed u t) : Followed (g u) (g t) where
  bystander := hg.bystander t u h.bystander
  notices k p hp hk := by
    rw [hg.notices] at hp ⊢
    exact h.notices k p hp hk
  zones z := by
    rw [hg.zone, hg.zone]
    exact h.zones z
  fans f := by
    rw [hg.fan, hg.fan]
    exact h.fans f
  within z := by
    rw [hg.zone, hg.zone]
    exact h.within z
  allocated ha := (hg.allocated t).mpr (h.allocated ((hg.allocated u).mp ha))

/-- A command that ends in a pass and an update beside it. -/
theorem taken_after_pass {f g : State → State} {s u : State} (h : s.awake) (hg : Beside g) (e : f s = g (runPass u))
    (ha : AirAlike s u) : ∃ t, taken f s = .next t ∧ Followed (g (passCore u)) t ∧
      ((allocate u.passInput).permitted = false → u.pneu.holder = none → t = g (passCore u)) := by
  by_cases hq : (allocate u.passInput).permitted = false ∧ u.pneu.holder = none
  · have passed : f s = g (passCore u) := e.trans (congrArg g (runPass_refused hq.1 hq.2))
    have air := (ha.trans (airAlike_passCore u)).trans (hg.air _)
    refine ⟨g (passCore u), ?_, (Stirs.same (P := fun _ => True) _).followed, fun _ _ => rfl⟩
    rw [← passed] at air ⊢
    exact taken_quiet f s h (air.reports.trans h.2.1) (air.releases.trans h.2.2)
  · obtain ⟨t, ht, followed⟩ := taken_next f s h
    rw [e] at followed
    exact ⟨t, ht, ((followed_runPass u).beside hg).trans followed, fun hp hh => absurd ⟨hp, hh⟩ hq⟩

/-- An event that ends in a pass. -/
theorem taken_pass {f : State → State} {s u : State} (h : s.awake) (e : f s = runPass u) (ha : AirAlike s u) :
    ∃ t, taken f s = .next t ∧ PassedTo s u t := by
  have beside : Beside (fun v => v) := ⟨fun _ => ⟨rfl, rfl, rfl⟩, fun _ => rfl, fun _ => ⟨rfl, rfl⟩, fun _ => Iff.rfl, fun _ _ e => e⟩
  obtain ⟨t, ht, core, still⟩ := taken_after_pass h beside e ha
  exact ⟨t, ht, core, ha, still⟩

theorem beside_withResults (r : PerMaster LastResult) : Beside (State.withResults · r) :=
  ⟨fun _ => ⟨rfl, rfl, rfl⟩, fun _ => rfl, fun _ => ⟨rfl, rfl⟩, fun _ => Iff.rfl, fun _ _ e => congrArg (State.withResults · r) e⟩

/-- A write command that ends in a pass. -/
theorem taken_write_pass {f : State → State} {s u : State} {m : Master} {code : Byte} {y : Option Seat} {c : ResultCode} (h : s.onBus)
    (e : f { s with bus := .idle } = recordResult m code y (runPass u, c)) (ha : AirAlike s u) (hu : u.results = s.results) :
    ∃ t, taken (writeRow f) s = .next t ∧ PassedTo s (u.withResults (s.results.set m ⟨c, some code, y⟩)) t := by
  have kept : (runPass u).results = s.results := (results_of_bystander (bystander_runPass u)).trans hu
  have effect : writeRow f s = (runPass u).withResults (s.results.set m ⟨c, some code, y⟩) := by
    rw [writeRow_onBus f s h, e, ← kept]
    rfl
  obtain ⟨t, ht, core, still⟩ := taken_after_pass h.1 (beside_withResults _) effect ha
  rw [← passCore_withResults] at core still
  exact ⟨t, ht, core, ha.trans ⟨rfl, rfl, rfl⟩, still⟩

end Sys2Proof.Machine
end
section
/-! PROOFS. The events of the supply and the ceiling, and CLEAR DIAGNOSTICS (O28, O42). -/
namespace Sys2Proof.Machine

/-! ## What the loads' operations touch -/

/-- `u` differs from `s` in its zones, fans and notices alone. -/
def State.onLoads (s u : State) : Prop := u = { s with zones := u.zones, fans := u.fans, notices := u.notices }

theorem onLoads_keep (s : State) : LoadsKeep s.onLoads where
  setZone := by
    intro z c u _ h
    unfold State.onLoads at h ⊢
    rw [h]
    rfl
  setFan := by
    intro f c u _ h
    unfold State.onLoads at h ⊢
    rw [h]
    rfl
  raiseSeat := by
    intro k x d e u _ h
    unfold State.onLoads at h ⊢
    rw [raiseSeat_touches, h]

theorem onLoads_refl (s : State) : s.onLoads s := rfl

theorem State.onLoads.air {s u : State} (h : s.onLoads u) : AirAlike s u := by
  rw [h]
  exact ⟨rfl, rfl, rfl⟩

/-! ## Raises -/

theorem bystander_raiseSeat (k : NoticeKind) (x : Seat) (d : Detail) (e : Option Master) (s : State) :
    (raiseSeat k x d e s).bystander = s.bystander := by
  unfold raiseSeat
  rw [bystander_deliver, bystander_deliver, bystander_deliver]

theorem bystander_raiseDevice (k : NoticeKind) (d : Detail) (s : State) : (raiseDevice k d s).bystander = s.bystander :=
  bystander_deliver _ _ _ _

theorem raiseDevice_reaches (k : NoticeKind) (d : Detail) (s : State) : (raiseDevice k d s).toldGateway k d := by
  show (⟨k, none, d⟩ : Notice) ∈ (insertNotice _ _)
  exact mem_insertNotice _ _

/-- A device notice of a kind that the reports do not raise is still there. -/
theorem Followed.toldGateway {u t : State} {k : NoticeKind} {d : Detail} (h : Followed u t) (hk : k.isReported = false)
    (hu : u.toldGateway k d) : t.toldGateway k d := h.notices .gateway _ hu hk

/-! ## CEILING_REFRESH_EXPIRY and SUPPLY_SAMPLE (spec/04 R60, R62, R63) -/

/-- The fallen ceiling before its pass (spec/04 R60). -/
def State.ceilingFallen (s : State) : State :=
  recomputeCeiling (raiseDevice .lease (.lease s.defaultCeiling) (s.modBudget fun b =>
    { b with ceiling := s.defaultCeiling, refresh := none }))

theorem ceilingFallen_eq (s : State) : ∃ n, s.ceilingFallen = { s with
    budget := { s.budget with
      ceiling := s.defaultCeiling, refresh := none, cEff := min s.defaultCeiling s.bandCap - 20 * s.budget.derate }
    notices := n } ∧ s.ceilingFallen.toldGateway .lease (.lease s.defaultCeiling) := by
  refine ⟨s.ceilingFallen.notices, ?_, raiseDevice_reaches _ _ _⟩
  unfold State.ceilingFallen
  rw [raiseDevice_touches]
  rfl

/-- The present band by the table's hysteresis (spec/04 R62). -/
theorem classify_eq (b : Band) (v : Nat) : classify b v =
    if v < (if b = .stop then 95 else 90) then .stop else if v < (if b = .normal then 110 else 115) then .shed else .normal := by
  cases b <;> rfl

/-- The changed band before its pass (spec/04 R63). -/
def State.bandChanged (s : State) (b : Band) : State :=
  raiseDevice .supply (.supply b s.supply.band) (recomputeCeiling { s with supply := { s.supply with band := b } })

theorem airAlike_bandChanged (s : State) (b : Band) : AirAlike s (s.bandChanged b) :=
  AirAlike.trans (t := recomputeCeiling { s with supply := { s.supply with band := b } }) ⟨rfl, rfl, rfl⟩ (airAlike_raiseDevice _ _ _)

/-- A sample as it is stored (spec/04 R57). -/
def State.sampled (s : State) (v : Nat) : State :=
  { s with supply := { s.supply with reading := min 255 v }, supplyTimer := 10 }

/-- Settles O42: the fallen ceiling and the changed band each end in a pass. -/
theorem ceilingAndSupplyEventsAct : Obligations.CeilingAndSupplyEventsAct := by
  refine ⟨fun s h => ⟨fun hr => ?_, fun hr => ?_⟩, ?_⟩
  · have still : expireRefresh s = s := by
      unfold expireRefresh
      split
      · rfl
      · rfl
      · rename_i e
        exact absurd e hr
    exact (taken_quiet expireRefresh s h (by rw [still]; exact h.2.1) (by rw [still]; exact h.2.2)).trans
      (congrArg Host.Outcome.next still)
  · have passes : expireRefresh s = runPass s.ceilingFallen := by
      unfold expireRefresh
      rw [hr] <;> rfl
    obtain ⟨n, fallen, told⟩ := ceilingFallen_eq s
    obtain ⟨t, ht, passed⟩ := taken_pass h passes (by rw [fallen]; exact ⟨rfl, rfl, rfl⟩)
    refine ⟨t, ht, passed.followed.toldGateway rfl told, passed.result, passed.followed.bystander.trans ?_⟩
    unfold State.ceilingFallen
    show (recomputeCeiling (raiseDevice _ _ _)).bystander = _
    rw [raiseDevice_touches]
    rfl
  · intro v s h hv up full band cap r
    have class_ : classify s.supply.band v = band := classify_eq s.supply.band v
    have effect : sampleSupply v s = if band = s.supply.band then s.sampled v else changeBand band (s.sampled v) := by
      unfold sampleSupply
      rw [if_neg (by omega)]
      dsimp only
      rw [class_]
      rfl
    refine ⟨fun e => ?_, fun e => ?_⟩
    · rw [if_pos e] at effect
      have stored : sampleSupply v s = r := by
        show _ = { s.sampled v with supply := { (s.sampled v).supply with band := band } }
        rw [effect, e]
        rfl
      exact (taken_quiet (sampleSupply v) s h (by rw [stored]; exact h.2.1) (by rw [stored]; exact h.2.2)).trans
        (congrArg Host.Outcome.next stored)
    · rw [if_neg e] at effect
      have passes : sampleSupply v s = runPass ((s.sampled v).bandChanged band) := effect
      have air : AirAlike s ((s.sampled v).bandChanged band) :=
        AirAlike.trans (t := s.sampled v) ⟨rfl, rfl, rfl⟩ (airAlike_bandChanged _ band)
      obtain ⟨t, ht, passed⟩ := taken_pass h passes air
      refine ⟨t, ht, passed.followed.toldGateway rfl (raiseDevice_reaches _ _ _), passed.result, passed.followed.bystander.trans ?_⟩
      refine (bystander_raiseDevice _ _ _).trans ?_
      have caps : cap = ({ r with supply := { r.supply with band := band } } : State).bandCap := by
        show (if band = .normal then 600 else if band = .shed then s.shedCeiling else 0) = _
        unfold State.bandCap
        show _ = match band with
          | .normal => 600
          | .shed => s.shedCeiling
          | .stop => 0
        generalize band = b
        cases b <;> rfl
      rw [caps]
      rfl

/-! ## The scan's overdraw check (spec/04 R64 to R66) -/

/-- The state of a scan before its overdraw check. -/
def State.scannedMean (s : State) (v : PerSeat (Five Int)) (sum count : Nat) : State :=
  takeMean sum count (scanZones (storeScan v { s with scanned := true, scanTimer := s.scanPeriod }))

theorem completeScan_eq (v : PerSeat (Five Int)) (sum count : Nat) (s : State) :
    completeScan v sum count s = scanPass (checkOverdraw (s.scannedMean v sum count)) := rfl

/-- Up to its overdraw check a scan touches the zones, the notices, the readings of the supply and the scan's timer. -/
theorem scannedMean_eq (v : PerSeat (Five Int)) (sum count : Nat) (s : State) : s.scannedMean v sum count = { s with
    zones := (s.scannedMean v sum count).zones, fans := (s.scannedMean v sum count).fans
    notices := (s.scannedMean v sum count).notices, scanned := true, scanTimer := s.scanPeriod
    supply := { s.supply with
      measured := min 1000 (meanOf (s.supply.itotSum + sum) (s.supply.itotCount + count)), itotSum := 0, itotCount := 0 } } := by
  have touched := (onLoads_keep (storeScan v { s with scanned := true, scanTimer := s.scanPeriod })).scanZones (onLoads_refl _)
  unfold State.onLoads at touched
  unfold State.scannedMean
  rw [touched]
  rfl

theorem followed_scanPass (s : State) : Followed s (scanPass s) := by
  have peak : Followed (passCore s) ((passCore s).modBudget fun b => { b with peak := b.result.total }) := ⟨rfl, fun _ _ h _ => h, fun _ _ _ => rfl, fun _ _ _ _ => rfl, fun _ h => h, fun h => h⟩
  exact ((followed_passCore s).trans peak).trans (stirs_takePermission (P := fun _ => True) (.same _)).followed

/-- The state in which a scan takes its derate step (spec/04 R66). -/
def State.derated (s : State) : State :=
  raiseDevice .overdraw (.overdraw (min 3 (s.budget.derate + 1)) s.supply.measured s.budget.peakFound)
    (recomputeCeiling ((s.modBudget fun b => { b with overdrawRun := 0, stepPeak := none }).modBudget fun b =>
      { b with derate := min 3 (s.budget.derate + 1) }))

theorem checkOverdraw_derates {s : State} (hm : s.budget.peakFound + s.overdrawMargin < s.supply.measured)
    (hr : 2 ≤ s.budget.runFound) : checkOverdraw s = s.derated := by
  unfold checkOverdraw
  dsimp only
  rw [if_pos hm, if_neg (by omega)] <;> rfl

/-- What follows the first derate step (spec/04 R66). -/
theorem followed_derated {y u : State} (hd : y.budget.derate = 0) (h : Followed y.derated u) :
    u.budget.derate = 1 ∧ u.budget.overdrawRun = 0 ∧ u.budget.cEff = min y.budget.ceiling y.bandCap - 20 ∧
      u.toldGateway .overdraw (.overdraw 1 y.supply.measured y.budget.peakFound) := by
  have left := budget_of_bystander (h.bystander.trans (bystander_raiseDevice _ _ _))
  have told := h.toldGateway rfl (raiseDevice_reaches _ _ _)
  have steps : min 3 (y.budget.derate + 1) = 1 := by rw [hd]; rfl
  rw [steps] at left told
  exact ⟨congrArg Budget.derate left, congrArg Budget.overdrawRun left, congrArg Budget.cEff left, told⟩

/-! ## CLEAR DIAGNOSTICS (spec/04 R67, spec/06 R131) -/

/-- The cleared budget before its pass. -/
def State.stepsCleared (s : State) : State :=
  recomputeCeiling { s with bus := .idle, log := .clear, budget := { s.budget with derate := 0, overdrawRun := 0 } }

/-- What a CLEAR DIAGNOSTICS keeps of a due derate step, and its last result. -/
def State.keepDue (s : State) (m : Master) (t : State) : State :=
  (t.modBudget fun b => { b with stepPeak := s.budget.stepDue }).withResults (s.results.set m ⟨.ok, some 0x43, none⟩)

theorem beside_keepDue (s : State) (m : Master) : Beside (s.keepDue m) where
  air _ := ⟨rfl, rfl, rfl⟩
  notices _ := rfl
  loads _ := ⟨rfl, rfl⟩
  allocated _ := Iff.rfl
  bystander v w e := by
    have budget := budget_of_bystander e
    have merged (u : State) : (s.keepDue m u).bystander = u.bystander.withResults (s.results.set m ⟨.ok, some 0x43, none⟩) := rfl
    rw [merged, merged, e]

theorem takeClearDiagnostics_eq {m : Master} {s : State} (h : s.onBus) (hw : s.mayWrite m .config = true) :
    writeRow (takeClearDiagnostics m) s = s.keepDue m
      (if s.budget.derate = 0 then { s with bus := .idle, log := .clear, budget := { s.budget with derate := 0, overdrawRun := 0 } }
        else runPass s.stepsCleared) := by
  rw [writeRow_onBus _ s h]
  have own : ownClearDiagnostics m { s with bus := .idle } = (clearDerate { s with bus := .idle, log := .clear }, .ok) := if_pos hw
  unfold takeClearDiagnostics
  rw [own]
  have steps : clearSteps { s with bus := .idle, log := .clear } =
      if s.budget.derate = 0 then { s with bus := .idle, log := .clear, budget := { s.budget with derate := 0, overdrawRun := 0 } }
      else runPass s.stepsCleared := rfl
  unfold clearDerate State.keepDue
  rw [steps]
  by_cases hd : s.budget.derate = 0
  · rw [if_pos hd]
    rfl
  · rw [if_neg hd]
    have results : (runPass s.stepsCleared).results = s.results :=
      (results_of_bystander (bystander_runPass s.stepsCleared)).trans rfl
    rw [← results]
    rfl

/-- What a CLEAR DIAGNOSTICS that finds the air system at rest leaves to a scan of its moment. -/
theorem cleared_then {m : Master} {s : State} (h : s.onBus) (hw : s.mayWrite m .config = true) (hq : s.airQuiet = true) :
    ∃ t, exec (.clearDiagnostics m) s = .next t ∧ t.awake ∧ t.airQuiet = true ∧ t.budget.derate = 0 ∧
      t.budget.stepPeak = s.budget.stepDue ∧ t.budget.ceiling = s.budget.ceiling ∧ t.supply = s.supply ∧ t.params = s.params := by
  have effect := takeClearDiagnostics_eq h hw
  by_cases hd : s.budget.derate = 0
  · rw [if_pos hd] at effect
    refine ⟨_, (taken_quiet _ s h.1 ?_ ?_).trans (congrArg _ effect), h.1, hq, rfl, rfl, rfl, rfl, rfl⟩
    · rw [effect]
      exact h.1.2.1
    · rw [effect]
      exact h.1.2.2
  · rw [if_neg hd] at effect
    obtain ⟨t, ht, core, still⟩ := taken_after_pass h.1 (beside_keepDue s m) effect ⟨rfl, rfl, rfl⟩
    have quiet (hq : s.airQuiet = true) : t = s.keepDue m (passCore s.stepsCleared) :=
      still (permitted_of_quiet (s := s.stepsCleared) hq) ((airQuiet_iff s).mp hq).2.1
    have followed := ((followed_passCore s.stepsCleared).beside (beside_keepDue s m)).trans core
    have air := (airAlike_passCore s.stepsCleared).trans ((beside_keepDue s m).air _)
    rw [← quiet hq] at air
    have budget := budget_of_bystander followed.bystander
    refine ⟨t, ht, ⟨(powered_of_bystander followed.bystander).trans h.1.1, air.reports.trans h.1.2.1, air.releases.trans h.1.2.2⟩,
      air.quiet hq, congrArg Budget.derate budget, ?_, (congrArg Budget.ceiling budget).trans rfl,
      (supply_of_bystander followed.bystander).trans rfl, (params_of_bystander followed.bystander).trans rfl⟩
    rw [quiet hq]
    rfl

/-- Settles O28: the cleared record, its pass where a derate step stood, and the due step of a scan taken second. -/
theorem clearDiagnosticsClears : Obligations.ClearDiagnosticsClears := by
  intro m s h hw due r
  have effect := takeClearDiagnostics_eq h hw
  refine ⟨fun hd => ?_, fun hd => ?_, ?_⟩
  · rw [if_pos hd] at effect
    have cleared : writeRow (takeClearDiagnostics m) s = r := effect
    exact (taken_quiet _ s h.1 (by rw [cleared]; exact h.1.2.1) (by rw [cleared]; exact h.1.2.2)).trans (congrArg _ cleared)
  · rw [if_neg hd] at effect
    obtain ⟨t, ht, core, still⟩ := taken_after_pass h.1 (beside_keepDue s m) effect ⟨rfl, rfl, rfl⟩
    have quiet (hq : s.airQuiet = true) : t = s.keepDue m (passCore s.stepsCleared) :=
      still (permitted_of_quiet (s := s.stepsCleared) hq) ((airQuiet_iff s).mp hq).2.1
    have followed := ((followed_passCore s.stepsCleared).beside (beside_keepDue s m)).trans core
    have budget := budget_of_bystander followed.bystander
    refine ⟨t, ht, congrArg Budget.derate budget, congrArg Budget.overdrawRun budget, congrArg Budget.cEff budget, fun hq => ?_,
      followed.bystander⟩
    rw [quiet hq]
    refine ⟨?_, ?_, result_passCore s.stepsCleared, rfl⟩
    · show (passCore s.stepsCleared).log = _
      rw [passCore_touches]
      rfl
    · show (passCore s.stepsCleared).ram = _
      rw [passCore_touches]
      rfl
  · intro v sum count hq hr mean hc hm
    obtain ⟨t, ht, awake, -, derate, step, ceiling, supply, params⟩ := cleared_then h hw hq
    have found : s.budget.stepDue = some s.budget.peak := if_pos hr
    obtain ⟨run, peak⟩ := found_of_some t.budget s.budget.peak (step.trans found)
    have measured : (t.scannedMean v sum count).supply.measured = mean := by
      rw [scannedMean_eq, supply]
      exact congrArg (min 1000) (if_neg (by omega))
    have budget : (t.scannedMean v sum count).budget = t.budget := by rw [scannedMean_eq]
    have margin : (t.scannedMean v sum count).overdrawMargin = s.overdrawMargin := by
      rw [scannedMean_eq]
      show t.param _ = s.param _
      unfold State.param
      rw [params]
    have cap : (t.scannedMean v sum count).bandCap = s.bandCap := by
      rw [scannedMean_eq]
      unfold State.bandCap State.shedCeiling State.param
      dsimp only
      rw [supply, params]
    have derates := checkOverdraw_derates (s := t.scannedMean v sum count) (by rw [budget, margin, measured, peak]; exact hm)
      (Nat.le_of_eq (by rw [budget, run]))
    obtain ⟨u, hu, followed⟩ := taken_next (completeScan v sum count) t awake
    rw [completeScan_eq, derates] at followed
    obtain ⟨one, none_, ceff, told⟩ := followed_derated (by rw [budget, derate]) ((followed_scanPass _).trans followed)
    rw [cap, budget, ceiling] at ceff
    rw [measured, budget, peak] at told
    exact ⟨t, u, ht, hu, one, none_, ceff, told⟩

end Sys2Proof.Machine
end
section
/-! PROOFS. The events of the heating controller's windows and the auto step-down (O39, O40). -/
namespace Sys2Proof.Machine

/-! ## Channels set twice -/

theorem setZone_setZone (s : State) (z : ZoneId) (a b : ZoneChannel) : (s.setZone z a).setZone z b = s.setZone z b := by
  obtain ⟨x, p⟩ := z
  cases x <;> cases p <;> rfl

theorem setZone_same (s : State) (z : ZoneId) : s.setZone z (s.zone z) = s := by
  obtain ⟨x, p⟩ := z
  cases x <;> cases p <;> rfl

theorem setFan_setFan (s : State) (f : FanId) (a b : FanChannel) : (s.setFan f a).setFan f b = s.setFan f b := by
  obtain ⟨x, p⟩ := f
  cases x <;> cases p <;> rfl

theorem level_setLevel_other (s : State) (z y : ZoneId) (v : Setting) (h : y ≠ z) : (s.setLevel z v).level y = s.level y := by
  obtain ⟨x, p⟩ := z
  obtain ⟨w, q⟩ := y
  by_cases hx : w = x
  · subst hx
    have hp : q ≠ p := fun e => h (by rw [e])
    simp [State.setLevel, State.level, hp]
  · simp [State.setLevel, State.level, hx]

theorem State.onLoads.rest {s u : State} (h : s.onLoads u) :
    u.seats = s.seats ∧ u.params = s.params ∧ u.results = s.results ∧ u.access = s.access := by
  rw [h]
  exact ⟨rfl, rfl, rfl, rfl⟩

theorem airAlike_setZone (s : State) (z : ZoneId) (c : ZoneChannel) : AirAlike s (s.setZone z c) := ⟨rfl, rfl, rfl⟩

/-- An event without effect. -/
theorem taken_still {f : State → State} {s : State} (h : s.awake) (e : f s = s) : taken f s = .next s :=
  (taken_quiet f s h (by rw [e]; exact h.2.1) (by rw [e]; exact h.2.2)).trans (congrArg Host.Outcome.next e)

/-- An event at one zone's channel. -/
theorem taken_setZone {f : State → State} {s : State} {z : ZoneId} {c : ZoneChannel} (h : s.awake) (e : f s = s.setZone z c) :
    taken f s = .next (s.setZone z c) :=
  (taken_quiet f s h (by rw [e]; exact h.2.1) (by rw [e]; exact h.2.2)).trans (congrArg Host.Outcome.next e)

/-! ## The windows (spec/02 R31 to R36) -/

/-- A zone channel as a latch leaves it (spec/02 R33). -/
def ZoneChannel.latched (c : ZoneChannel) : ZoneChannel :=
  shutZone .fault { c with latch := true, faults := satSucc 255 c.faults }

/-- A latch ends the window whether it has been judged or not. -/
theorem latched_closeWindow (c : ZoneChannel) (n : Nat) : ({ closeWindow c with openLoad := n } : ZoneChannel).latched = c.latched := by
  unfold closeWindow
  split <;> rfl

/-- A latch that a pass follows: the zone's channel, its notice, the pass, and all else. -/
theorem taken_latch {f : State → State} {s w : State} {z : ZoneId} {cause : HeatCause} {c : ZoneChannel} (h : s.awake)
    (hw : w = s.setZone z c) (e : f s = runPass (latchZone z cause w)) :
    ∃ t, taken f s = .next t ∧ t.zone z = c.latched ∧ s.told t .heatFault z.seat (.heatFault z cause) none ∧
      (s.airQuiet = true → t.budget.result = allocate t.passInput) ∧ t.bystander = (s.setZone z c.latched).bystander := by
  subst hw
  have latched : latchZone z cause (s.setZone z c) = raiseHeatFault z cause (s.setZone z c.latched) := by
    unfold latchZone
    dsimp only
    rw [State.zone_setZone, setZone_setZone] <;> rfl
  rw [latched] at e
  obtain ⟨t, ht, passed⟩ := taken_pass h e ((airAlike_setZone s z _).trans (airAlike_raiseSeat _ _ _ _ _))
  have zone : (raiseHeatFault z cause (s.setZone z c.latched)).zone z = c.latched := by
    unfold raiseHeatFault
    rw [raiseSeat_touches]
    exact State.zone_setZone s z _
  refine ⟨t, ht, (passed.followed.zones z (by rw [zone]; rfl) (by rw [zone]; rfl)).trans zone, ?_, passed.result, ?_⟩
  · exact passed.followed.told (v := s.setZone z c.latched) rfl rfl rfl
  · exact passed.followed.bystander.trans (bystander_raiseSeat _ _ _ _ _)

theorem awaitsJudgement_false {c : ZoneChannel} (h : ¬ (c.carried = true ∨ c.unjudged = true)) : c.awaitsJudgement = false := by
  rw [← awaitsJudgement_eq] at h
  simpa using h

/-- Settles O39: the opened window, and its judgement by the current and the count of low ones. -/
theorem windowsAndCurrentsAreJudged : Obligations.WindowsAndCurrentsAreJudged := by
  refine ⟨fun z s h => ?_, ?_⟩
  · have effect : startZoneFrame z s = { s.setZone z (openWindow (s.zone z)) with frameSlot := 10 * zoneNumber z, frameMs := 0 } := rfl
    refine ⟨_, taken_quiet _ s h (by rw [effect]; exact h.2.1) (by rw [effect]; exact h.2.2), ?_, fun y hy => ?_, rfl, rfl, rfl⟩
    · refine (State.zone_setZone s z _).trans ?_
      have carried : ((s.zone z).unjudged && (s.zone z).endsWithFrame) =
          decide ((s.zone z).unjudged = true ∧ ((s.zone z).window = 100 ∨ (s.zone z).onSlots = 100)) := by
        rw [Bool.eq_iff_iff, Bool.and_eq_true, endsWithFrame_eq, decide_eq_true_eq]
        rfl
      unfold openWindow
      rw [carried]
    · exact State.zone_setZone_other s z y _ hy
  · intro z current s h c due low ended faulted latches
    have judged (hd : due) : judgeWindow z current s =
        if lowWindow current (s.rated z) then
          if 3 ≤ c.openLoad + 1 then
            runPass (latchZone z .openLoad (s.setZone z { closeWindow c with openLoad := min 3 (c.openLoad + 1) }))
          else s.setZone z { closeWindow c with openLoad := min 3 (c.openLoad + 1) }
        else s.setZone z { closeWindow c with openLoad := 0 } := if_pos ((awaitsJudgement_eq c).mpr hd)
    have closed : closeWindow c = ended := by
      by_cases hc : c.carried = true
      · exact (if_pos hc).trans (if_pos hc).symm
      · refine (if_neg hc).trans (Eq.trans ?_ (if_neg hc).symm)
        have gate : (c.gate && decide (c.window = wholeFrame)) = decide (c.gate = true ∧ c.window = 100) := by
          rw [Bool.eq_iff_iff, Bool.and_eq_true, decide_eq_true_eq, decide_eq_true_eq]
          rfl
        rw [gate]
    have lowIff : lowWindow current (s.rated z) = true ↔ low := decide_eq_true_iff
    refine ⟨fun hd => ?_, fun hd hl => ?_, fun hd hl ho => ?_, fun hd hl ho => ?_, fun hn => ?_, fun hg ho => ?_⟩
    · exact taken_still h (if_neg (by rw [awaitsJudgement_false hd]; decide))
    · rw [← closed]
      exact taken_setZone h ((judged hd).trans (if_neg (fun e => hl (lowIff.mp e))))
    · have count : min 3 (c.openLoad + 1) = c.openLoad + 1 := by omega
      rw [← closed, ← count]
      exact taken_setZone h (((judged hd).trans (if_pos (lowIff.mpr hl))).trans (if_neg (by omega)))
    · have effect := ((judged hd).trans (if_pos (lowIff.mpr hl))).trans (if_pos (by omega))
      have latch := taken_latch h rfl effect
      rw [latched_closeWindow] at latch
      exact latch
    · have still : ((s.zone z).gate && overCurrent current (s.rated z)) = false :=
        Bool.and_eq_false_iff.mpr (hn.imp id fun hc => decide_eq_false (by omega))
      exact taken_still h (if_neg (by rw [still]; decide))
    · have exceeds : overCurrent current (s.rated z) = true := decide_eq_true (p := 15 * s.rated z < current * 10) (by omega)
      exact taken_latch h (setZone_same s z).symm (if_pos (Bool.and_eq_true_iff.mpr ⟨hg, exceeds⟩))

/-! ## Evaluating a zone (spec/02 R25) -/

/-- What an evaluation of a zone does not reach: its reading, step-down count, latch and fault count. -/
def ZoneChannel.kept (c : ZoneChannel) : Option Int × Nat × Nat × Bool × Nat := (c.temp, c.minutes, c.minuteMs, c.latch, c.faults)

theorem setRequest_kept (r : Nat) (c : ZoneChannel) : (setRequest r c).kept = c.kept := by
  unfold setRequest
  split <;> rfl

theorem evaluateChannel_kept (s : State) (z : ZoneId) (c : ZoneChannel) : (evaluateChannel s z c).1.kept = c.kept := by
  unfold evaluateChannel
  dsimp only
  split
  · rfl
  · split
    · rfl
    · split
      · rfl
      · split
        · exact setRequest_kept _ c
        · split
          · exact setRequest_kept _ _
          · exact setRequest_kept _ _

theorem zone_putEvaluated (z : ZoneId) (r : ZoneChannel × Bool) (s : State) : (putEvaluated z r s).zone z = r.1 := by
  unfold putEvaluated raiseHeatFault
  split
  · rw [raiseSeat_touches]
    exact State.zone_setZone s z _
  · exact State.zone_setZone s z _

theorem zone_putEvaluated_other (z y : ZoneId) (r : ZoneChannel × Bool) (s : State) (h : y ≠ z) :
    (putEvaluated z r s).zone y = s.zone y := by
  unfold putEvaluated raiseHeatFault
  split
  · rw [raiseSeat_touches]
    exact State.zone_setZone_other s z y _ h
  · exact State.zone_setZone_other s z y _ h

theorem onLoads_evaluateZone (z : ZoneId) (s : State) : s.onLoads (evaluateZone z s) :=
  (onLoads_keep s).evaluateZone z (onLoads_refl s)

/-! ## STEP_DOWN (spec/02 R41) -/

/-- A zone that takes a level and a channel and is evaluated. -/
def State.relevelled (s : State) (z : ZoneId) (v : Setting) (c : ZoneChannel) : State :=
  evaluateZone z ((s.setLevel z v).setZone z c)

section

variable (s : State) (z : ZoneId) (v : Setting) (c : ZoneChannel)

theorem relevelled_eq : s.relevelled z v c =
    putEvaluated z (evaluateChannel ((s.setLevel z v).setZone z c) z c) ((s.setLevel z v).setZone z c) := by
  unfold State.relevelled evaluateZone
  rw [State.zone_setZone]

theorem relevelled_onLoads : ((s.setLevel z v).setZone z c).onLoads (s.relevelled z v c) := onLoads_evaluateZone z _

theorem relevelled_level : (s.relevelled z v c).level z = v := by
  rw [relevelled_onLoads s z v c]
  exact State.level_setLevel s z v

theorem relevelled_level_other (y : ZoneId) (h : y ≠ z) : (s.relevelled z v c).level y = s.level y := by
  rw [relevelled_onLoads s z v c]
  exact level_setLevel_other s z y v h

theorem relevelled_kept : ((s.relevelled z v c).zone z).kept = c.kept := by
  rw [relevelled_eq, zone_putEvaluated]
  exact evaluateChannel_kept _ z c

theorem relevelled_zone_other (y : ZoneId) (h : y ≠ z) : (s.relevelled z v c).zone y = s.zone y := by
  rw [relevelled_eq, zone_putEvaluated_other z y _ _ h]
  exact State.zone_setZone_other _ z y c h

theorem relevelled_air : AirAlike s (s.relevelled z v c) :=
  AirAlike.trans (t := (s.setLevel z v).setZone z c) ⟨rfl, rfl, rfl⟩ (relevelled_onLoads s z v c).air

end

/-- Settles O40: the lower level with a new count, its notice and the pass. -/
theorem stepDownLowersTheLevel : Obligations.StepDownLowersTheLevel := by
  intro z s h due
  have dueIff : stepDownDue s z = true ↔ due := by
    rw [stepDownDue_eq]
  refine ⟨fun hd => taken_still h (if_neg fun e => hd (dueIff.mp e)), fun hd => ?_⟩
  let v : Setting := ⟨(s.level z).value - 1, .device⟩
  let u := s.relevelled z v (restartStepDown (s.zone z))
  have effect : reachStepDown z s = runPass (raiseSeat .stepDown z.seat (.stepDown z ((s.level z).value - 1)) none u) :=
    if_pos (dueIff.mpr hd)
  obtain ⟨t, ht, passed⟩ := taken_pass h effect ((relevelled_air s z v _).trans (airAlike_raiseSeat _ _ _ _ _))
  have same : t.bystander = u.bystander := passed.followed.bystander.trans (bystander_raiseSeat _ _ _ _ _)
  have kept := relevelled_kept s z v (restartStepDown (s.zone z))
  obtain ⟨-, params, results, access⟩ := (relevelled_onLoads s z v (restartStepDown (s.zone z))).rest
  refine ⟨t, ht, (level_of_bystander same z).trans (relevelled_level s z v _),
    (congrArg ZoneChannel.minutes (zone_of_bystander same z)).trans (congrArg (·.2.1) kept),
    (congrArg ZoneChannel.minuteMs (zone_of_bystander same z)).trans (congrArg (·.2.2.1) kept),
    fun y hy => (level_of_bystander same y).trans (relevelled_level_other s z v _ y hy), fun y hy => ?_,
    (params_of_bystander same).trans params, (results_of_bystander same).trans results,
    passed.result, passed.followed.told (v := u) rfl rfl access⟩
  have zone := zone_of_bystander same y
  rw [relevelled_zone_other s z v _ y hy] at zone
  exact ⟨(congrArg ZoneChannel.request zone :), (congrArg ZoneChannel.state zone :)⟩

end Sys2Proof.Machine
end
section
/-! PROOFS. SET FAN and the events of the fan controller (O15, O41). -/
namespace Sys2Proof.Machine

/-! ## Fans and levels set one after another -/

theorem airAlike_setFan (s : State) (f : FanId) (c : FanChannel) : AirAlike s (s.setFan f c) := ⟨rfl, rfl, rfl⟩

/-- What a re-derived demand leaves. -/
theorem rederive_keeps (b : Bool) (l : Nat) (c : FanChannel) :
    (rederive b l c).state = c.state ∧ (rederive b l c).retries = c.retries ∧ (rederive b l c).retryTimer = c.retryTimer ∧
    (rederive b l c).cleanRun = c.cleanRun ∧ (rederive b l c).restarted = c.restarted := by
  unfold rederive
  dsimp only
  split <;> exact ⟨rfl, rfl, rfl, rfl, rfl⟩

theorem fanDemand_run (b : Bool) (l : Nat) : fanDemand b l .run = if b = true then l else 0 := by cases b <;> rfl

/-- What a level handed by SET FAN makes of a channel (spec/03 R51, R52). -/
theorem handLevel_spec (v : Nat) (c : FanChannel) :
    (handLevel true v c).state = (if v = 0 then .off else if c.state = .retryWait then .retryWait else .run) ∧
    (handLevel true v c).retries = (if c.state = .fault then 0 else c.retries) ∧
    (handLevel true v c).retryTimer = (if c.state = .retryWait ∧ v = 0 then none else c.retryTimer) := by
  unfold handLevel
  cases hc : c.state <;> by_cases hv : v = 0 <;> simp [hv, hc]

/-! ## SET FAN (spec/01 R5, spec/03 R51, R52) -/

/-- A fan that takes a level of SET FAN, before the pass. -/
def State.fanSet (s : State) (m : Master) (f : FanId) (v : Nat) : State :=
  raiseChanged m f.seat (.fan f) (handFan true f (s.setFanLevel f ⟨v, m.origin⟩))

/-- The fan channel that a SET FAN leaves. -/
def State.fanAfter (s : State) (f : FanId) (v : Nat) : FanChannel := rederive (s.active f.seat) v (handLevel true v (s.fan f))

theorem active_setFanLevel (s : State) (f : FanId) (v : Setting) (x : Seat) : (s.setFanLevel f v).active x = s.active x := by
  obtain ⟨y, p⟩ := f
  cases y <;> cases x <;> rfl

theorem fanSet_eq (s : State) (m : Master) (f : FanId) (v : Nat) :
    s.fanSet m f v = raiseChanged m f.seat (.fan f) ((s.setFanLevel f ⟨v, m.origin⟩).setFan f (s.fanAfter f v)) := by
  unfold State.fanSet handFan State.fanAfter
  dsimp only
  rw [State.fanLevel_setFanLevel, active_setFanLevel]
  rfl

theorem fan_fanSet (s : State) (m : Master) (f : FanId) (v : Nat) : (s.fanSet m f v).fan f = s.fanAfter f v := by
  rw [fanSet_eq]
  unfold raiseChanged
  rw [raiseSeat_touches]
  exact State.fan_setFan _ f _

theorem airAlike_fanSet (s : State) (m : Master) (f : FanId) (v : Nat) : AirAlike s (s.fanSet m f v) := by
  rw [fanSet_eq]
  exact AirAlike.trans (t := (s.setFanLevel f ⟨v, m.origin⟩).setFan f (s.fanAfter f v)) ⟨rfl, rfl, rfl⟩ (airAlike_raiseSeat _ _ _ _ _)

theorem results_fanSet (s : State) (m : Master) (f : FanId) (v : Nat) : (s.fanSet m f v).results = s.results := by
  rw [fanSet_eq]
  unfold raiseChanged
  rw [raiseSeat_touches]
  rfl

theorem takeSetFan_eq {m : Master} {f : FanId} {level : Byte} {u : State} (hw : u.mayWrite m f.seat.region = true) :
    takeSetFan m (byteOf (fanNumber f)) level u =
      recordResult m 0x11 (some f.seat) (runPass (u.fanSet m f (min 3 level.toNat)), clampResult level.toNat (min 3 level.toNat)) := by
  unfold takeSetFan ownSetFan
  rw [fanOfCode_fanNumber]
  exact congrArg (recordResult m 0x11 (some f.seat)) (if_pos hw)

theorem clampResult_le (k n : Nat) : clampResult n (min k n) = if n ≤ k then .ok else .clamped := by
  unfold clampResult
  by_cases h : n ≤ k
  · rw [if_pos h, if_pos (by omega)]
  · rw [if_neg h, if_neg (by omega)]

/-- Settles O15: the stored level, the fan that follows it, and the pass. -/
theorem setFanStores : Obligations.SetFanStores := by
  intro m f level s h hw v code was now r
  have row := taken_write_pass (u := State.fanSet { s with bus := .idle } m f v) h (takeSetFan_eq (u := { s with bus := .idle }) hw)
    (AirAlike.trans (t := { s with bus := .idle }) ⟨rfl, rfl, rfl⟩ (airAlike_fanSet _ m f v)) (results_fanSet _ m f v)
  rw [clampResult_le] at row
  obtain ⟨t, ht, passed⟩ := row
  have same : t.bystander = (r.setFan f (s.fanAfter f v)).bystander := by
    refine passed.followed.bystander.trans ?_
    rw [fanSet_eq]
    exact congrArg (State.withResults · _) (bystander_raiseSeat _ _ _ _ _)
  have fan := fan_of_bystander same f
  rw [State.fan_setFan] at fan
  obtain ⟨demand, -⟩ := rederive_spec (s.active f.seat) v (handLevel true v (s.fan f))
  obtain ⟨state, retries, timer, -, -⟩ := rederive_keeps (s.active f.seat) v (handLevel true v (s.fan f))
  obtain ⟨state', retries', timer'⟩ := handLevel_spec v (s.fan f)
  refine ⟨t, ht, results_of_bystander same, (fanLevel_of_bystander same f).trans (State.fanLevel_setFanLevel _ f _),
    (congrArg FanChannel.state fan).trans (state.trans state'), (congrArg FanChannel.demand fan).trans (demand.trans ?_),
    (congrArg FanChannel.retries fan).trans (retries.trans retries'),
    (congrArg FanChannel.retryTimer fan).trans (timer.trans timer'), ?_, passed.result, same⟩
  · rw [state']
    unfold fanDemand
    show (if s.active f.seat && now == .run then v else 0) = _
    simp
  · exact passed.followed.told (v := State.setFan (State.setFanLevel { s with bus := .idle } f ⟨v, m.origin⟩) f (s.fanAfter f v)) rfl
      (by rw [fanSet_eq]; rfl) rfl

/-! ## Any command of the moment -/

/-- A command of a part with supply is its effect on the part, or on the part kept apart. -/
theorem taken_of_part (f : State → State) {t : State} (hp : t.powered = true) : ∃ v u, taken f t = .next u ∧
    u.toPart = (runEffect f v).toPart ∧ (v.toPart = t.toPart ∨ ∃ p, t.releases = .apart p ∧ v = t.shutApart p) := by
  unfold taken
  rw [if_pos hp]
  unfold takeEffect
  split
  · exact ⟨t, _, rfl, rfl, .inl rfl⟩
  · rename_i p hr
    dsimp only
    split
    · exact ⟨t.shutApart p, _, rfl, rfl, .inr ⟨p, hr, rfl⟩⟩
    · exact ⟨{ t with releases := .select }, _, rfl, rfl, .inl rfl⟩
  all_goals exact ⟨{ t with releases := .select }, _, rfl, rfl, .inl rfl⟩

/-- The part kept apart by a command that comes with no release: the part as the command leaves it with no selection at a release. -/
theorem taken_awake_apart {f : State → State} {s t : State} {p : Part} (h : s.awake) (ht : taken f s = .next t)
    (hp : t.releases = .apart p) : p = (runEffect f { s with releases := .armed }).toPart := by
  rw [taken_awake f s h] at ht
  cases ht
  dsimp only at hp
  split at hp
  · exact (Releases.apart.inj hp).symm
  · cases hp

/-! ## The events of a fan (spec/03 R49 to R53) -/

theorem stallChannel_eq (c : FanChannel) : stallChannel c = { c with
    state := if c.retries < 3 then .retryWait else .fault, demand := 0, granted := 0, tachWatch := none
    retryTimer := if c.retries < 3 then some 10000 else c.retryTimer, cleanRun := 0 } := by
  unfold stallChannel
  by_cases h : c.retries < 3
  · simp only [if_pos h]
    rfl
  · simp only [if_neg h]
    rfl

/-- The fan channel that the end of its retry timer leaves (spec/03 R51). -/
def State.fanRestarted (s : State) (f : FanId) : FanChannel :=
  rederive (s.active f.seat) (s.fanLevel f).value (restartChannel (s.fan f))

/-- What the retry timer's end has made of the part where it runs out. -/
def State.hasRestarted (s : State) (f : FanId) (v : State) : Prop :=
  v.scanned = s.scanned ∧ v.access = s.access ∧ (v.fan f).state = .run ∧ (v.fan f).retries = min 3 ((s.fan f).retries + 1)

theorem expireRetry_eq {f : FanId} {s : State} (hs : (s.fan f).state = .retryWait) (ht : (s.fan f).retryTimer = some 0) :
    expireRetry f s =
      if (s.fanRestarted f).demand = (s.fan f).demand then s.setFan f (s.fanRestarted f) else runPass (s.setFan f (s.fanRestarted f)) := by
  have restarted : rederiveFan f (s.setFan f (restartChannel (s.fan f))) = s.setFan f (s.fanRestarted f) := by
    unfold rederiveFan
    rw [State.fan_setFan, setFan_setFan]
    rfl
  refine (if_pos ⟨hs, ht⟩).trans ?_
  rw [restarted, State.fan_setFan]

theorem expireRetry_followed {f : FanId} {s : State} (hs : (s.fan f).state = .retryWait) (ht : (s.fan f).retryTimer = some 0) :
    Followed (s.setFan f (s.fanRestarted f)) (expireRetry f s) := by
  rw [expireRetry_eq hs ht]
  split
  · exact (Stirs.same (P := fun _ => True) _).followed
  · exact (followed_passCore _).trans (followed_runPass _)

theorem Followed.hasRestarted {f : FanId} {s u v : State} (hu : u.bystander = (s.setFan f (s.fanRestarted f)).bystander)
    (h : Followed u v) : s.hasRestarted f v := by
  have same := h.bystander.trans hu
  have fan := fan_of_bystander same f
  rw [State.fan_setFan] at fan
  obtain ⟨state, retries, -, -, -⟩ := rederive_keeps (s.active f.seat) (s.fanLevel f).value (restartChannel (s.fan f))
  exact ⟨(scanned_of_bystander same).trans rfl, (access_of_bystander same).trans rfl, (congrArg FanChannel.state fan).trans state,
    (congrArg FanChannel.retries fan).trans retries⟩

/-- A SET FAN to level 0 that finds the fan restarted turns it off and keeps the count (spec/03 R51). -/
theorem setFan_zero_restarted {m : Master} {f : FanId} {s v : State} (hb : s.onBus) (hw : s.mayWrite m f.seat.region = true)
    (hv : s.hasRestarted f v) : ((runEffect (writeRow (takeSetFan m (byteOf (fanNumber f)) 0)) v).fan f).state = .off ∧
      ((runEffect (writeRow (takeSetFan m (byteOf (fanNumber f)) 0)) v).fan f).granted = 0 ∧
      ((runEffect (writeRow (takeSetFan m (byteOf (fanNumber f)) 0)) v).fan f).tachWatch = none ∧
      ((runEffect (writeRow (takeSetFan m (byteOf (fanNumber f)) 0)) v).fan f).retries = min 3 ((s.fan f).retries + 1) := by
  obtain ⟨scanned, access, state, retries⟩ := hv
  have right : ({ v with bus := .idle } : State).mayWrite m f.seat.region = true := by
    unfold State.mayWrite
    dsimp only
    rw [access]
    exact hw
  let u := State.fanSet { v with bus := .idle } m f 0
  have row : writeRow (takeSetFan m (byteOf (fanNumber f)) 0) v = recordResult m 0x11 (some f.seat) (runPass u, .ok) := by
    unfold writeRow
    rw [if_pos (scanned.trans hb.2)]
    exact takeSetFan_eq right
  have after : u.fan f = rederive (State.active { v with bus := .idle } f.seat) 0 (handLevel true 0 (v.fan f)) := fan_fanSet _ m f 0
  have demand : (u.fan f).demand = 0 := by
    rw [after, (rederive_spec _ _ _).1]
    unfold fanDemand
    split <;> rfl
  have off : (passCore u).fan f = setGranted 0 (u.fan f) := by
    rw [fan_passCore, Nat.le_zero.mp (Nat.le_trans (levelOf_le u f) (Nat.le_of_eq (by rw [demand])))]
  have followed := ((followed_runPass u).beside (beside_withResults ((runPass u).results.set m ⟨.ok, some 0x11, some f.seat⟩))).trans
    (followed_settle reportBound _)
  have fan := (followed.fans f (by rw [(beside_withResults _).fan, off]; exact demand) (by rw [(beside_withResults _).fan, off]; rfl)
    (by rw [(beside_withResults _).fan, off]; rfl)).trans (((beside_withResults _).fan _ f).trans off)
  obtain ⟨state', retries', -, -, -⟩ := rederive_keeps (State.active { v with bus := .idle } f.seat) 0 (handLevel true 0 (v.fan f))
  obtain ⟨stateOff, retriesKept, -⟩ := handLevel_spec 0 (v.fan f)
  unfold runEffect
  rw [row]
  refine ⟨(congrArg FanChannel.state fan).trans ?_, congrArg FanChannel.granted fan, congrArg FanChannel.tachWatch fan,
    (congrArg FanChannel.retries fan).trans ?_⟩
  · show (u.fan f).state = .off
    rw [after, state', stateOff]
    rfl
  · show (u.fan f).retries = _
    rw [after, retries', retriesKept, state, ← retries]
    rfl

/-- Settles O41: each event by the state and the retries of its fan. -/
theorem fanEventsAct : Obligations.FanEventsAct := by
  have drivenIff (c : FanChannel) : c.driven = true ↔ 1 ≤ c.granted ∧ c.restarted = false := driven_iff c
  have quiet {f : FanId} {s : State} {g : State → State} {p : Prop} [Decidable p] (h : s.awake) (c : FanChannel)
      (e : g s = if p then s.setFan f c else s) : taken g s = .next (if p then s.setFan f c else s) := by
    rw [← e]
    refine taken_quiet g s h ?_ ?_
    all_goals
      rw [e]
      split
    · exact h.2.1
    · exact h.2.1
    · exact h.2.2
    · exact h.2.2
  refine ⟨fun f s h => quiet h _ ?_, fun f s h => quiet h _ ?_, ?_, ?_⟩
  · unfold pulseFan
    simp only [drivenIff]
  · unfold completeCleanRun
    simp only [drivenIff, and_assoc]
  · intro f s h stalls stopped passed
    have stallsIff : ((s.fan f).state = .run ∧ (s.fan f).driven = true ∧ (s.fan f).tachWatch = some 0) ↔ stalls := by
      rw [drivenIff, and_assoc]
    refine ⟨fun hn => taken_still h (if_neg fun e => hn (stallsIff.mp e)), fun hs hr => ?_, fun hs hr => ?_⟩
    · have effect : stallFan f s = runPass (s.setFan f (stallChannel (s.fan f))) := (if_pos (stallsIff.mpr hs)).trans (if_pos hr)
      obtain ⟨t, ht, pass⟩ := taken_pass h effect ⟨rfl, rfl, rfl⟩
      have channel : stallChannel (s.fan f) = stopped .retryWait (some 10000) := by
        rw [stallChannel_eq, if_pos hr, if_pos hr]
      rw [channel] at pass
      refine ⟨t, ht, (pass.followed.fans f ?_ ?_ ?_).trans (State.fan_setFan s f _), pass.result, pass.followed.bystander⟩
      all_goals
        rw [State.fan_setFan]
    · have effect : stallFan f s = runPass (raiseSeat .fanFault f.seat (.fanFault f) none (s.setFan f (stallChannel (s.fan f)))) :=
        (if_pos (stallsIff.mpr hs)).trans (if_neg (by omega))
      obtain ⟨t, ht, pass⟩ := taken_pass h effect ((airAlike_setFan s f _).trans (airAlike_raiseSeat _ _ _ _ _))
      have channel : stallChannel (s.fan f) = stopped .fault (s.fan f).retryTimer := by
        rw [stallChannel_eq, if_neg (by omega), if_neg (by omega)]
      rw [channel] at pass
      have fan : (raiseSeat .fanFault f.seat (.fanFault f) none (s.setFan f (stopped .fault (s.fan f).retryTimer))).fan f =
          stopped .fault (s.fan f).retryTimer := by
        rw [raiseSeat_touches]
        exact State.fan_setFan s f _
      refine ⟨t, ht, (pass.followed.fans f ?_ ?_ ?_).trans fan, pass.result,
        pass.followed.told (v := s.setFan f (stopped .fault (s.fan f).retryTimer)) rfl rfl rfl,
        pass.followed.bystander.trans (bystander_raiseSeat _ _ _ _ _)⟩
      all_goals
        rw [fan]
  · intro f s h
    refine ⟨fun hn => taken_still h (if_neg fun e => hn.elim (absurd e.1) (absurd e.2)), fun hs ht => ?_⟩
    let w := s.setFan f (s.fanRestarted f)
    have effect := expireRetry_eq hs ht
    have taken_ : ∃ t, taken (expireRetry f) s = .next t ∧ Followed w t ∧
        ((s.fanRestarted f).demand ≠ (s.fan f).demand → s.airQuiet = true → t.budget.result = allocate t.passInput) := by
      by_cases hd : (s.fanRestarted f).demand = (s.fan f).demand
      · rw [if_pos hd] at effect
        exact ⟨w, (taken_quiet _ s h (by rw [effect]; exact h.2.1) (by rw [effect]; exact h.2.2)).trans (congrArg _ effect),
          (Stirs.same (P := fun _ => True) w).followed, fun e => absurd hd e⟩
      · rw [if_neg hd] at effect
        obtain ⟨t, ht, pass⟩ := taken_pass h effect ⟨rfl, rfl, rfl⟩
        exact ⟨t, ht, pass.followed, fun _ => pass.result⟩
    obtain ⟨t, taken_, followed, result⟩ := taken_
    have same : t.bystander = w.bystander := followed.bystander
    have fan := fan_of_bystander same f
    rw [State.fan_setFan] at fan
    obtain ⟨state, retries, timer, clean, restarted⟩ :=
      rederive_keeps (s.active f.seat) (s.fanLevel f).value (restartChannel (s.fan f))
    have demand : (s.fanRestarted f).demand = if s.active f.seat = true then (s.fanLevel f).value else 0 :=
      (rederive_spec _ _ _).1.trans (fanDemand_run _ _)
    have demandAfter : (t.fan f).demand = (s.fanRestarted f).demand := (congrArg FanChannel.demand fan :)
    refine ⟨t, taken_, (congrArg FanChannel.state fan).trans state, (congrArg FanChannel.retryTimer fan).trans timer,
      (congrArg FanChannel.retries fan).trans retries, (congrArg FanChannel.cleanRun fan).trans clean, ?_,
      demandAfter.trans demand, fun hd => result (by rw [← demandAfter]; exact hd), fun g hg => ?_, fun z => zone_of_bystander same z,
      (params_of_bystander same).trans rfl, fun m hb hw hr => ?_⟩
    · have restarted_ : (t.fan f).restarted = true := (congrArg FanChannel.restarted fan).trans restarted
      unfold FanChannel.driven
      rw [restarted_, Bool.not_true, Bool.and_false]
    · have other := fan_of_bystander same g
      rw [State.fan_setFan_other s f g _ hg] at other
      exact ⟨(congrArg FanChannel.state other :), (congrArg FanChannel.demand other :)⟩
    · obtain ⟨v, u, hu, part, which⟩ := taken_of_part (writeRow (takeSetFan m (byteOf (fanNumber f)) 0)) (t := t)
        ((powered_of_bystander same).trans h.1)
      have hasRestarted : s.hasRestarted f v := by
        have here := followed.hasRestarted rfl
        cases which with
        | inl e =>
          unfold State.hasRestarted State.fan at here ⊢
          rw [e]
          exact here
        | inr e =>
          obtain ⟨p, hp, rfl⟩ := e
          have apart := taken_awake_apart h taken_ hp
          have armed := ((expireRetry_followed (f := f) (s := { s with releases := .armed }) hs ht).trans
            (followed_settle reportBound _)).hasRestarted (s := s) (f := f) (by rfl)
          subst apart
          exact armed
      have off := setFan_zero_restarted hb hw hasRestarted
      refine ⟨u, hu, ?_⟩
      unfold State.fan at off ⊢
      rw [part]
      exact off

end Sys2Proof.Machine
end
section
/-! PROOFS. SET ZONE and SET CEILING (O13, O22). -/
namespace Sys2Proof.Machine

/-! ## The rows of an evaluation (spec/02 R25) -/

section

variable {s : State} {z : ZoneId} {c : ZoneChannel}

theorem evaluateChannel_vacant (ha : s.active z.seat = false) : evaluateChannel s z c = (shutZone .standby c, false) :=
  if_pos (by rw [ha]; rfl)

theorem evaluateChannel_latched (ha : s.active z.seat = true) (hl : c.latch = true) :
    evaluateChannel s z c = (shutZone .fault c, false) := (if_neg (by rw [ha]; decide)).trans (if_pos hl)

theorem evaluateChannel_unset (ha : s.active z.seat = true) (hl : c.latch = false) (hv : (s.level z).value = 0) :
    evaluateChannel s z c = (shutZone .off c, false) :=
  (if_neg (by rw [ha]; decide)).trans ((if_neg (by rw [hl]; decide)).trans (if_pos hv))

theorem evaluateChannel_degraded (ha : s.active z.seat = true) (hl : c.latch = false) (hv : (s.level z).value ≠ 0)
    (hd : c.state = .degraded) : evaluateChannel s z c = (setRequest (s.openLoop (s.level z).value) c, false) :=
  (if_neg (by rw [ha]; decide)).trans ((if_neg (by rw [hl]; decide)).trans ((if_neg hv).trans (if_pos hd)))

/-- The rows of a zone that may run in closed loop. -/
theorem evaluateChannel_reads (ha : s.active z.seat = true) (hl : c.latch = false) (hv : (s.level z).value ≠ 0)
    (hd : c.state ≠ .degraded) : evaluateChannel s z c =
      match c.temp with
      | none => (setRequest (s.openLoop (s.level z).value) { c with state := .degraded, streak := 0 }, true)
      | some m => (closedLoop s z m c, false) :=
  (if_neg (by rw [ha]; decide)).trans ((if_neg (by rw [hl]; decide)).trans ((if_neg hv).trans (if_neg hd)))

end

theorem setRequest_state (r : Nat) (c : ZoneChannel) : (setRequest r c).state = c.state := by
  unfold setRequest
  split <;> rfl

/-- The request and the state of a zone in closed loop are those of the control law. -/
theorem closedLoop_spec (s : State) (z : ZoneId) (m : Int) (c : ZoneChannel) :
    ((closedLoop s z m c).request, (closedLoop s z m c).state) = s.lawFor z (s.level z).value m := by
  unfold closedLoop
  dsimp only
  rw [(setRequest_spec _ _).1, setRequest_state]

/-! ## Two raises -/

theorem raiseSeat_keeps {s : State} {k : NoticeKind} {x : Seat} {d : Detail} {e : Option Master} {p : Notice} {m : Master}
    (hp : p ∈ (s.notices.get m).pending) (hk : p.kind ≠ k) : p ∈ ((raiseSeat k x d e s).notices.get m).pending :=
  deliver_keeps _ _ p _ _ m (deliver_keeps _ _ p _ _ m (deliver_keeps _ _ p _ _ m hp hk) hk) hk

/-- A zone that enters DEGRADED tells the seat's readers (spec/02 R29). -/
theorem told_putEvaluated {s : State} {z : ZoneId} {r : ZoneChannel × Bool} (h : r.2 = true) :
    s.told (putEvaluated z r s) .heatFault z.seat (.heatFault z .sensor) none := by
  intro m hr he
  unfold putEvaluated raiseHeatFault
  rw [if_pos h]
  exact raiseSeat_reaches _ _ _ _ _ m hr he

theorem bystander_putEvaluated (s : State) (z : ZoneId) (r : ZoneChannel × Bool) :
    (putEvaluated z r s).bystander = (s.setZone z r.1).bystander := by
  unfold putEvaluated raiseHeatFault
  split
  · exact bystander_raiseSeat _ _ _ _ _
  · rfl

/-! ## SET ZONE (spec/01 R4, spec/02 R25, R34) -/

/-- The channel that a SET ZONE has evaluated: re-armed, its step-down count restarted. -/
def ZoneChannel.armed (c : ZoneChannel) : ZoneChannel := { c with latch := false, minutes := 0, minuteMs := 0 }

/-- A zone that takes a level of SET ZONE, before the pass. -/
def State.zoneSet (s : State) (m : Master) (z : ZoneId) (v : Nat) : State :=
  raiseChanged m z.seat (.zone z) (s.relevelled z ⟨v, m.origin⟩ (s.zone z).armed)

theorem takeSetZone_eq {m : Master} {z : ZoneId} {level : Byte} {u : State} (hw : u.mayWrite m z.seat.region = true) :
    takeSetZone m (byteOf (zoneNumber z)) level u =
      recordResult m 0x10 (some z.seat) (runPass (u.zoneSet m z (min 5 level.toNat)), clampResult level.toNat (min 5 level.toNat)) := by
  unfold takeSetZone ownSetZone
  rw [zoneOfCode_zoneNumber]
  exact congrArg (recordResult m 0x10 (some z.seat)) (if_pos hw)

theorem airAlike_zoneSet (s : State) (m : Master) (z : ZoneId) (v : Nat) : AirAlike s (s.zoneSet m z v) :=
  (relevelled_air s z _ _).trans (airAlike_raiseSeat _ _ _ _ _)

theorem results_zoneSet (s : State) (m : Master) (z : ZoneId) (v : Nat) : (s.zoneSet m z v).results = s.results := by
  obtain ⟨-, -, results, -⟩ := (relevelled_onLoads s z ⟨v, m.origin⟩ (s.zone z).armed).rest
  refine Eq.trans ?_ results
  unfold State.zoneSet raiseChanged
  rw [raiseSeat_touches]

/-- The state in which a SET ZONE evaluates its zone. -/
def State.zoneArmed (s : State) (m : Master) (z : ZoneId) (v : Nat) : State :=
  (s.setLevel z ⟨v, m.origin⟩).setZone z (s.zone z).armed

theorem active_setLevel (s : State) (z : ZoneId) (v : Setting) (x : Seat) : (s.setLevel z v).active x = s.active x := by
  obtain ⟨y, p⟩ := z
  cases y <;> cases x <;> rfl

theorem zone_zoneSet (s : State) (m : Master) (z : ZoneId) (v : Nat) :
    (s.zoneSet m z v).zone z = (evaluateChannel (s.zoneArmed m z v) z (s.zone z).armed).1 := by
  unfold State.zoneSet raiseChanged
  rw [raiseSeat_touches, relevelled_eq]
  exact zone_putEvaluated z _ _

/-- Settles O13: the row of R25 for the new level, and the pass. -/
theorem setZoneStores : Obligations.SetZoneStores := by
  intro m z level s h hw v code r armed
  let s' : State := { s with bus := .idle }
  have row := taken_write_pass (u := s'.zoneSet m z v) h (takeSetZone_eq (u := s') hw)
    (AirAlike.trans (t := s') ⟨rfl, rfl, rfl⟩ (airAlike_zoneSet s' m z v)) (results_zoneSet s' m z v)
  rw [clampResult_le] at row
  obtain ⟨t, ht, passed⟩ := row
  let e := evaluateChannel r z armed
  have evaluated : evaluateChannel (s'.zoneArmed m z v) z (s'.zone z).armed = e := rfl
  have zone : (s'.zoneSet m z v).zone z = e.1 := (zone_zoneSet s' m z v).trans (congrArg Prod.fst evaluated)
  have before : (s'.zoneSet m z v).bystander = ((s'.zoneArmed m z v).setZone z e.1).bystander := by
    refine (bystander_raiseSeat _ _ _ _ _).trans ?_
    rw [relevelled_eq]
    exact bystander_putEvaluated _ z _
  have same : t.bystander = (r.setZone z e.1).bystander := by
    refine passed.followed.bystander.trans ?_
    have set_ : (s'.zoneArmed m z v).setZone z e.1 = (s'.setLevel z ⟨v, m.origin⟩).setZone z e.1 := setZone_setZone _ z _ _
    rw [set_] at before
    exact congrArg (fun w : State => w.withResults (s.results.set m ⟨code, some 0x10, some z.seat⟩)) before
  have ungranted := zone_of_bystander same z
  rw [State.zone_setZone] at ungranted
  have kept := evaluateChannel_kept r z armed
  have level' : r.level z = ⟨v, m.origin⟩ := State.level_setLevel _ z _
  have active : r.active z.seat = s.active z.seat := active_setLevel _ z _ z.seat
  have value : (r.level z).value = v := congrArg Setting.value level'
  have unasked (hr : e.1.request = 0) : t.zone z = takeGrant 0 e.1 :=
    (passed.zone_unasked z (by exact (congrArg ZoneChannel.request zone).trans hr)).trans (congrArg (takeGrant 0) zone)
  refine ⟨t, ht, results_of_bystander same, (level_of_bystander same z).trans level', ?_, ?_, ?_, fun ha => ?_, fun ha hv => ?_,
    fun ha hv hd => ?_, fun ha hv hd ht => ?_, passed.result, fun c ht ha hv hd => ?_, ?_, same⟩
  · exact ((congrArg ZoneChannel.latch ungranted :)).trans (congrArg (·.2.2.2.1) kept)
  · exact ((congrArg ZoneChannel.minutes ungranted :)).trans (congrArg (·.2.1) kept)
  · exact ((congrArg ZoneChannel.minuteMs ungranted :)).trans (congrArg (·.2.2.1) kept)
  · have row : e = (shutZone .standby armed, false) := evaluateChannel_vacant (active.trans ha)
    rw [unasked (by rw [row]; rfl), row]
    exact ⟨rfl, rfl, rfl⟩
  · have row : e = (shutZone .off armed, false) := evaluateChannel_unset (active.trans ha) rfl (value.trans hv)
    rw [unasked (by rw [row]; rfl), row]
    exact ⟨rfl, rfl, rfl, rfl⟩
  · have row : e.1.state = .degraded ∧ e.1.request = s.openLoop v := by
      by_cases hs : (s.zone z).state = .degraded
      · have deg : e = (setRequest (r.openLoop (r.level z).value) armed, false) :=
          evaluateChannel_degraded (active.trans ha) rfl (by rw [value]; exact hv) hs
        rw [deg, value]
        exact ⟨(setRequest_state _ _).trans hs, (setRequest_spec _ _).1⟩
      · have reads := evaluateChannel_reads (s := r) (z := z) (c := armed) (active.trans ha) rfl (by rw [value]; exact hv) hs
        have blind : armed.temp = none := hd.resolve_left hs
        rw [blind, value] at reads
        have deg : e = _ := reads
        rw [deg]
        exact ⟨setRequest_state _ _, (setRequest_spec _ _).1⟩
    exact ⟨(congrArg ZoneChannel.state ungranted).trans row.1, (congrArg ZoneChannel.request ungranted).trans row.2⟩
  · have reads := evaluateChannel_reads (s := r) (z := z) (c := armed) (active.trans ha) rfl (by rw [value]; exact hv) hd
    have blind : armed.temp = none := ht
    rw [blind] at reads
    have enters : e.2 = true := congrArg Prod.snd reads
    intro k hr he
    refine passed.followed.notices k _ (raiseSeat_keeps ?_ ?_) rfl
    · rw [relevelled_eq]
      exact told_putEvaluated enters k hr he
    · intro h
      cases h
  · have reads := evaluateChannel_reads (s := r) (z := z) (c := armed) (active.trans ha) rfl (by rw [value]; exact hv) hd
    have read : armed.temp = some c := ht
    rw [read] at reads
    have law := closedLoop_spec r z c armed
    have closed : e.1 = closedLoop r z c armed := congrArg Prod.fst reads
    rw [value] at law
    have request : (t.zone z).request = e.1.request := (congrArg ZoneChannel.request ungranted :)
    have state : (t.zone z).state = e.1.state := (congrArg ZoneChannel.state ungranted :)
    rw [request, state, closed]
    exact law
  · exact passed.followed.told (v := s'.relevelled z ⟨v, m.origin⟩ (s'.zone z).armed) rfl rfl
      (relevelled_onLoads s' z ⟨v, m.origin⟩ (s.zone z).armed).rest.2.2.2

/-! ## SET CEILING (spec/04 R59) -/

/-- The ceiling that a SET CEILING stores, before the pass. -/
def State.ceilingSet (s : State) (v : Nat) : State :=
  recomputeCeiling (s.modBudget fun b => { b with ceiling := v, refresh := s.freshRefresh })

theorem takeSetCeiling_eq {m : Master} {value : Half} {u : State} (hw : u.mayWrite m .budget = true) :
    takeSetCeiling m value u =
      recordResult m 0x20 none (runPass (u.ceilingSet (min 600 value.toNat)), clampResult value.toNat (min 600 value.toNat)) :=
  congrArg (recordResult m 0x20 none) (if_pos hw)

/-- The notices of a pass: BUDGET LIMITED where a limited result follows a FULL one (spec/04 R80). -/
theorem notices_passCore (s : State) : (passCore s).notices =
    if s.budget.result.status = .full ∧ (allocate s.passInput).status ≠ .full then
      (raiseDevice .budgetLimited (.limited (decide ((allocate s.passInput).dutyCap < 100))
        ((allocate s.passInput).demandSeen && !(allocate s.passInput).permitted) (allocate s.passInput).dutyCap) s).notices
    else s.notices := by
  show (storeResult (allocate s.passInput) s).notices = _
  unfold storeResult noteLimited
  split <;> rfl

theorem peak_passCore (s : State) : (passCore s).budget.peak = max s.budget.peak (allocate s.passInput).total := by
  show (storeResult (allocate s.passInput) s).budget.peak = _
  unfold storeResult noteLimited
  split <;> rfl

/-- Settles O22: the stored ceiling and the hand-off of its pass. -/
theorem setCeilingStores : Obligations.SetCeilingStores := by
  intro m value s h hw v code timer cEff
  let s' : State := { s with bus := .idle }
  have row := taken_write_pass (u := s'.ceilingSet v) h (takeSetCeiling_eq (u := s') hw) ⟨rfl, rfl, rfl⟩ rfl
  rw [clampResult_le] at row
  obtain ⟨t, ht, passed⟩ := row
  have same := passed.followed.bystander
  have budget := budget_of_bystander same
  have ceff : t.budget.cEff = cEff := congrArg Budget.cEff budget
  have overhead : t.overhead = s.overhead := by
    unfold State.overhead State.param
    rw [params_of_bystander same]
    rfl
  obtain ⟨starves, fits⟩ := passed.core.allocated (passCore_allocated _)
  rw [ceff, overhead] at starves fits
  refine ⟨t, ht, results_of_bystander same, congrArg Budget.ceiling budget, congrArg Budget.refresh budget, ceff, starves, fits, ?_,
    same⟩
  intro holder a refused
  have still := passed.still refused holder
  rw [passCore_withResults] at still
  subst still
  have status : (s'.ceilingSet v).budget.result.status = s.budget.result.status := rfl
  have notices := notices_passCore (s'.ceilingSet v)
  have limited : (a.demandSeen && !a.permitted) = decide (a.demandSeen = true ∧ a.permitted = false) := by
    cases a.demandSeen <;> cases a.permitted <;> rfl
  refine ⟨(budget_passCore _).1, peak_passCore (s'.ceilingSet v), passCore_pneu (s'.ceilingSet v), ?_, ?_, fun hf hn => ?_,
    fun hn => ?_⟩
  · intro z g c
    refine (zone_passCore (s'.ceilingSet v) z).trans ?_
    show (if g < c.grant then cutWindow g c else { c with grant := g }) = _
    have gate : (c.gate && decide (c.onSlots < g)) = decide (c.gate = true ∧ c.onSlots < g) := by
      rw [Bool.eq_iff_iff, Bool.and_eq_true, decide_eq_true_eq, decide_eq_true_eq]
    unfold cutWindow
    rw [gate]
  · intro f g
    exact fan_passCore (s'.ceilingSet v) f
  · have raised := notices.trans (if_pos ⟨hf, hn⟩)
    have reaches : (⟨.budgetLimited, none, .limited (decide (a.dutyCap < 100)) (a.demandSeen && !a.permitted) a.dutyCap⟩ : Notice) ∈
        (passCore (s'.ceilingSet v)).notices.gateway.pending := by
      rw [raised]
      exact raiseDevice_reaches _ _ _
    rw [← limited]
    exact ⟨raised, reaches⟩
  · exact notices.trans (if_neg fun e => hn.elim (fun k => k e.1) e.2)

end Sys2Proof.Machine
end
section
/-! PROOFS. Operations that act on one zone or fan after another: the channel each is left with, and the pair that stays. -/
namespace Sys2Proof.Machine

/-! ## Folds -/

/-- Two operations that agree under an invariant that one of them keeps do the same one element after another. -/
theorem foldl_congr_on {σ ι : Type} (I : σ → Prop) {f g : σ → ι → σ} (keep : ∀ u i, I u → I (g u i))
    (same : ∀ u i, I u → f u i = g u i) (l : List ι) (s : σ) (hs : I s) : l.foldl f s = l.foldl g s := by
  induction l generalizing s with
  | nil => rfl
  | cons i l ih =>
    show l.foldl f (f s i) = l.foldl g (g s i)
    rw [same s i hs]
    exact ih _ (keep s i hs)

/-- An operation that acts at its own key alone, over distinct keys, acts once at each of them. -/
theorem foldl_at {σ ι κ : Type} [DecidableEq ι] {f : σ → ι → σ} {key : σ → ι → κ} {F : ι → κ → κ}
    (here : ∀ u i, key (f u i) i = F i (key u i)) (other : ∀ u i j, j ≠ i → key (f u i) j = key u j)
    (l : List ι) (nd : l.Nodup) (s : σ) (j : ι) : key (l.foldl f s) j = if j ∈ l then F j (key s j) else key s j := by
  induction l generalizing s with
  | nil => rfl
  | cons i l ih =>
    obtain ⟨fresh, nd⟩ := List.nodup_cons.mp nd
    refine (ih nd (f s i)).trans ?_
    by_cases e : j = i
    · subst e
      rw [if_neg fresh, if_pos (List.mem_cons_self ..), here]
    · rw [other s i j e]
      by_cases m : j ∈ l
      · rw [if_pos m, if_pos (List.mem_cons_of_mem _ m)]
      · rw [if_neg m, if_neg (by simp [e, m])]

/-! ## Zones put one after another -/

theorem nodup_of_sorted {l : List ZoneId} (h : l.Pairwise fun a b => zoneNumber a < zoneNumber b) : l.Nodup :=
  h.imp fun {_ _} lt e => absurd (congrArg zoneNumber e) (Nat.ne_of_lt lt)

/-- The zones of a list take channels one after another, each made of its own. -/
def putZones (G : ZoneId → ZoneChannel → ZoneChannel × Bool) (l : List ZoneId) (s : State) : State :=
  l.foldl (fun u z => putEvaluated z (G z (u.zone z)) u) s

section

variable (G : ZoneId → ZoneChannel → ZoneChannel × Bool)

theorem zone_putZones (l : List ZoneId) (nd : l.Nodup) (s : State) (z : ZoneId) :
    (putZones G l s).zone z = if z ∈ l then (G z (s.zone z)).1 else s.zone z :=
  foldl_at (key := State.zone) (F := fun z c => (G z c).1) (fun _ z => zone_putEvaluated z _ _)
    (fun _ z y h => zone_putEvaluated_other z y _ _ h) l nd s z

theorem access_putEvaluated (z : ZoneId) (r : ZoneChannel × Bool) (s : State) : (putEvaluated z r s).access = s.access := by
  unfold putEvaluated raiseHeatFault
  split
  · rw [raiseSeat_touches]
    rfl
  · rfl

theorem keeps_putEvaluated {s : State} {z : ZoneId} {r : ZoneChannel × Bool} {p : Notice} {m : Master}
    (hp : p ∈ (s.notices.get m).pending) (hk : r.2 = true → p.rank ≠ (⟨.heatFault, some z.seat, .heatFault z .sensor⟩ : Notice).rank) :
    p ∈ ((putEvaluated z r s).notices.get m).pending := by
  have one (u : State) (n : Notice) (b : Bool) (j : Master) (h : p ∈ (u.notices.get m).pending) (hn : p.rank ≠ n.rank) :
      p ∈ ((u.deliver n b j).notices.get m).pending := by
    unfold State.deliver
    split
    · by_cases e : m = j
      · subst e
        simpa [State.modNotices, NoticeBox.receive, NoticeBox.judged] using mem_insertNotice_other n p _ h hn
      · simpa [State.modNotices, e] using h
    · exact h
  unfold putEvaluated raiseHeatFault raiseSeat
  split
  · rename_i entered
    exact one _ _ _ _ (one _ _ _ _ (one _ _ _ _ hp (hk entered)) (hk entered)) (hk entered)
  · exact hp

/-- A pending pair stays where no zone of its seat enters DEGRADED. -/
theorem keeps_putZones (l : List ZoneId) (nd : l.Nodup) {s : State} {p : Notice} {m : Master}
    (hp : p ∈ (s.notices.get m).pending)
    (hk : ∀ y ∈ l, (G y (s.zone y)).2 = true → p.rank ≠ (⟨.heatFault, some y.seat, .heatFault y .sensor⟩ : Notice).rank) :
    p ∈ ((putZones G l s).notices.get m).pending := by
  induction l generalizing s with
  | nil => exact hp
  | cons z l ih =>
    obtain ⟨fresh, nd⟩ := List.nodup_cons.mp nd
    refine ih nd (keeps_putEvaluated hp (hk z (List.mem_cons_self ..))) fun y hy => ?_
    rw [zone_putEvaluated_other z y _ s (fun e => fresh (e ▸ hy))]
    exact hk y (List.mem_cons_of_mem _ hy)

theorem rank_heatFault {x y : Seat} {c d : Detail} (h : y ≠ x) :
    (⟨.heatFault, some x, c⟩ : Notice).rank ≠ (⟨.heatFault, some y, d⟩ : Notice).rank := by
  intro e
  have ranks : seatRank (some x) = seatRank (some y) := Nat.add_left_cancel (n := 3 * NoticeKind.heatFault.bit) e
  cases x <;> cases y
  · exact h rfl
  · cases ranks
  · cases ranks
  · exact h rfl

/-- The last zone of a seat that enters DEGRADED leaves its pair (spec/02 R29; notes/assumptions/39.md). -/
theorem told_putZones (l : List ZoneId) (sorted : l.Pairwise fun a b => zoneNumber a < zoneNumber b) {v s : State} {z : ZoneId}
    (hz : z ∈ l) (enters : (G z (s.zone z)).2 = true)
    (last : ∀ y ∈ l, (G y (s.zone y)).2 = true → y.seat = z.seat → zoneNumber y ≤ zoneNumber z)
    (ha : s.access = v.access) :
    v.told (putZones G l s) .heatFault z.seat (.heatFault z .sensor) none := by
  induction l generalizing s with
  | nil => cases hz
  | cons y l ih =>
    obtain ⟨above, rest⟩ := List.pairwise_cons.mp sorted
    have others (w : ZoneId) (hw : w ∈ l) : (putEvaluated y (G y (s.zone y)) s).zone w = s.zone w :=
      zone_putEvaluated_other y w _ s fun e => absurd (above w hw) (by rw [e]; omega)
    by_cases e : z = y
    · subst e
      intro m hr he
      have reads : s.mayRead m z.seat.region = true := by
        unfold State.mayRead
        rw [ha]
        exact hr
      refine keeps_putZones G l (nodup_of_sorted rest) (told_putEvaluated enters m reads he) fun w hw hwe => ?_
      rw [others w hw] at hwe
      refine rank_heatFault fun hs => ?_
      have := last w (List.mem_cons_of_mem _ hw) hwe hs
      have := above w hw
      omega
    · have there : z ∈ l := (List.mem_cons.mp hz).resolve_left e
      refine ih rest there (by rw [others z there]; exact enters) (fun w hw hwe => ?_) ?_
      · rw [others w hw] at hwe
        exact last w (List.mem_cons_of_mem _ hw) hwe
      · exact (access_putEvaluated y _ s).trans ha

end

/-- The evaluation of a zone looks at levels, occupancy and parameters alone. -/
theorem evaluateChannel_onLoads {s u : State} (h : s.onLoads u) (z : ZoneId) (c : ZoneChannel) :
    evaluateChannel u z c = evaluateChannel s z c := by
  rw [h]
  rfl

theorem evaluateSeatZones_eq (x : Seat) (s : State) : evaluateSeatZones x s = putZones (evaluateChannel s) (seatZones x) s := by
  refine (foldl_congr_on s.onLoads (fun u z hu => (onLoads_keep s).evaluateZone z hu) (fun u z hu => ?_) _ s (onLoads_refl s)).symm
  unfold evaluateZone
  rw [evaluateChannel_onLoads hu]

theorem seatZones_sorted (x : Seat) : (seatZones x).Pairwise fun a b => zoneNumber a < zoneNumber b := by cases x <;> decide

theorem allZones_sorted : allZones.Pairwise fun a b => zoneNumber a < zoneNumber b := by decide

theorem mem_allZones (z : ZoneId) : z ∈ allZones := by
  obtain ⟨x, p⟩ := z
  cases x <;> cases p <;> decide

/-- What a scan makes of a zone's channel (spec/02 R22, R30). -/
def scanChannel (s : State) (z : ZoneId) (c : ZoneChannel) : ZoneChannel × Bool :=
  if s.active z.seat && !c.latch && decide ((s.level z).value ≠ 0) && (c.state == .degraded) then (scanDegraded s z c, false)
  else evaluateChannel s z c

theorem scanZone_eq (z : ZoneId) (s : State) : scanZone z s = putEvaluated z (scanChannel s z (s.zone z)) s := by
  unfold scanZone scanChannel
  dsimp only
  split <;> rfl

theorem scanZones_eq (s : State) : scanZones s = putZones (scanChannel s) allZones s := by
  refine (foldl_congr_on s.onLoads (fun u z hu => (onLoads_keep s).scanZone z hu) (fun u z hu => ?_) _ s (onLoads_refl s)).symm
  rw [scanZone_eq]
  congr 1
  rw [hu]
  rfl

/-! ## The fans of a seat -/

theorem mem_seatFans_iff (f : FanId) (x : Seat) : f ∈ seatFans x ↔ f.seat = x :=
  ⟨ChannelKeep.seat_of_mem_seatFans, fun h => h ▸ ChannelKeep.mem_seatFans f⟩

theorem mem_seatZones_iff (z : ZoneId) (x : Seat) : z ∈ seatZones x ↔ z.seat = x :=
  ⟨ChannelKeep.seat_of_mem_seatZones, fun h => h ▸ ChannelKeep.mem_seatZones z⟩

/-- The fans of a list take channels one after another, each made of its own. -/
def putFans (G : FanId → FanChannel → FanChannel) (l : List FanId) (s : State) : State :=
  l.foldl (fun u f => u.setFan f (G f (u.fan f))) s

theorem fan_putFans (G : FanId → FanChannel → FanChannel) (l : List FanId) (nd : l.Nodup) (s : State) (f : FanId) :
    (putFans G l s).fan f = if f ∈ l then G f (s.fan f) else s.fan f :=
  foldl_at (key := State.fan) (fun u f => State.fan_setFan u f _) (fun u f g h => State.fan_setFan_other u f g _ h) l nd s f

theorem nodup_seatFans (x : Seat) : (seatFans x).Nodup := by cases x <;> decide

/-- What a re-derived demand and a level handed at the EMPTY transition make of a fan's channel. -/
def State.rederived (s : State) (f : FanId) (c : FanChannel) : FanChannel := rederive (s.active f.seat) (s.fanLevel f).value c

def State.handed (s : State) (f : FanId) (c : FanChannel) : FanChannel :=
  rederive (s.active f.seat) (s.fanLevel f).value (handLevel false (s.fanLevel f).value c)

theorem rederiveSeatFans_eq (x : Seat) (s : State) : rederiveSeatFans x s = putFans s.rederived (seatFans x) s := by
  refine (foldl_congr_on s.onLoads (fun u f hu => (onLoads_keep s).rederiveFan f hu) (fun u f hu => ?_) _ s (onLoads_refl s)).symm
  rw [hu]
  rfl

theorem emptySeatFans_eq (x : Seat) (s : State) : emptySeatFans x s = putFans s.handed (seatFans x) s := by
  refine (foldl_congr_on s.onLoads (fun u f hu => (onLoads_keep s).handFan false f hu) (fun u f hu => ?_) _ s (onLoads_refl s)).symm
  rw [hu]
  rfl

theorem putFans_touches (G : FanId → FanChannel → FanChannel) (l : List FanId) (s : State) :
    putFans G l s = { s with fans := (putFans G l s).fans } := by
  induction l generalizing s with
  | nil => rfl
  | cons f l ih => exact (ih (s.setFan f (G f (s.fan f))))

end Sys2Proof.Machine
end
section
/-! PROOFS. The scan (O38). -/
namespace Sys2Proof.Machine

/-! ## The overdraw check (spec/04 R65, R66) -/

/-- No kept derate step stays none. -/
theorem Stirs.stepPeak_none {P : Seat → Prop} {s t : State} (h : Stirs P s t) (hs : s.budget.stepPeak = none) :
    t.budget.stepPeak = none := by
  induction h with
  | pass _ ih =>
    rename_i t _
    have passed : (passCore t).budget.stepPeak = t.budget.stepPeak.map (max · (allocate t.passInput).total) := by
      show (storeResult (allocate t.passInput) t).budget.stepPeak = _
      unfold storeResult noteLimited
      split <;> rfl
    rw [passed, ih]
    rfl
  | raised _ n reached m _ ih =>
    rw [deliver_touches]
    exact ih
  | read _ i ih =>
    rw [readRecord_touches]
    exact ih
  | same => exact hs
  | air _ f _ ih => exact ih
  | reports _ l ih => exact ih
  | releases _ r ih => exact ih
  | cursor _ x _ f _ ih => exact ih
  | regulator _ x f _ ih => exact ih
  | zeroSetpoint _ x c ih => exact ih
  | underfill _ x ih => exact ih

theorem checkOverdraw_touches (y : State) :
    checkOverdraw y = { y with budget := (checkOverdraw y).budget, notices := (checkOverdraw y).notices } := by
  unfold checkOverdraw
  dsimp only
  split
  · split
    · rfl
    · rw [raiseDevice_touches]
      rfl
  · rfl

/-- The budget that an overdraw check leaves. -/
theorem checkOverdraw_spec (y : State) {peak run : Nat} (hp : y.budget.peakFound = peak) (hr : y.budget.runFound = run) :
    let exceeds := peak + y.overdrawMargin < y.supply.measured
    let d := if exceeds ∧ 2 ≤ run then min 3 (y.budget.derate + 1) else y.budget.derate
    (checkOverdraw y).budget.derate = d ∧ (checkOverdraw y).budget.overdrawRun = (if exceeds ∧ run < 2 then run + 1 else 0) ∧
    (checkOverdraw y).budget.stepPeak = none ∧
    (exceeds → 2 ≤ run → (checkOverdraw y).budget.cEff = min y.budget.ceiling y.bandCap - 20 * d ∧
      (checkOverdraw y).toldGateway .overdraw (.overdraw d y.supply.measured peak)) := by
  subst hp hr
  intro exceeds d
  by_cases he : exceeds
  · by_cases hr : 2 ≤ y.budget.runFound
    · have steps : d = min 3 (y.budget.derate + 1) := if_pos ⟨he, hr⟩
      rw [if_neg (by omega), steps, checkOverdraw_derates he hr]
      refine ⟨?_, ?_, ?_, fun _ _ => ⟨?_, raiseDevice_reaches _ _ _⟩⟩
      all_goals
        unfold State.derated
        rw [raiseDevice_touches]
        rfl
    · have steps : d = y.budget.derate := if_neg fun h => hr h.2
      have counted : checkOverdraw y = y.modBudget fun b => { b with overdrawRun := y.budget.runFound + 1, stepPeak := none } :=
        (if_pos he).trans (if_pos (by omega))
      rw [if_pos ⟨he, by omega⟩, steps, counted]
      exact ⟨rfl, rfl, rfl, fun _ h => absurd h hr⟩
  · have steps : d = y.budget.derate := if_neg fun h => he h.1
    have cleared : checkOverdraw y = y.modBudget fun b => { b with overdrawRun := 0, stepPeak := none } := if_neg he
    rw [if_neg fun h => he h.1, steps, cleared]
    exact ⟨rfl, rfl, rfl, fun h => absurd h he⟩

theorem checkOverdraw_keeps {y : State} {m : Master} {p : Notice} (hp : p ∈ (y.notices.get m).pending) (hk : p.kind ≠ .overdraw) :
    p ∈ ((checkOverdraw y).notices.get m).pending := by
  unfold checkOverdraw
  dsimp only
  split
  · split
    · exact hp
    · exact deliver_keeps _ _ p _ _ m hp hk
  · exact hp

/-! ## The scan at the zones (spec/02 R22 to R30) -/

theorem setRequest_streak (r : Nat) (c : ZoneChannel) : (setRequest r c).streak = c.streak := by
  unfold setRequest
  split <;> rfl

theorem scanDegraded_kept (s : State) (z : ZoneId) (c : ZoneChannel) : (scanDegraded s z c).kept = c.kept := by
  unfold scanDegraded
  split
  · exact setRequest_kept _ _
  · split
    · exact setRequest_kept _ _
    · exact setRequest_kept _ _

theorem scanChannel_kept (s : State) (z : ZoneId) (c : ZoneChannel) : (scanChannel s z c).1.kept = c.kept := by
  unfold scanChannel
  split
  · exact scanDegraded_kept s z c
  · exact evaluateChannel_kept s z c

section

variable {s : State} {z : ZoneId} {c : ZoneChannel}

theorem scanChannel_other (h : ¬ (s.active z.seat = true ∧ c.latch = false ∧ (s.level z).value ≠ 0 ∧ c.state = .degraded)) :
    scanChannel s z c = evaluateChannel s z c := by
  refine if_neg fun e => h ?_
  simpa [and_assoc] using e

theorem scanChannel_degraded (ha : s.active z.seat = true) (hl : c.latch = false) (hv : (s.level z).value ≠ 0)
    (hd : c.state = .degraded) : scanChannel s z c = (scanDegraded s z c, false) := by
  refine if_pos ?_
  rw [ha, hl, decide_eq_true hv, hd]
  rfl

/-- An evaluation enters DEGRADED exactly at a zone that may run in closed loop and has no reading (spec/02 R29). -/
theorem evaluateChannel_enters : (evaluateChannel s z c).2 = true ↔
    s.active z.seat = true ∧ c.latch = false ∧ (s.level z).value ≠ 0 ∧ c.state ≠ .degraded ∧ c.temp = none := by
  cases ha : s.active z.seat with
  | false => simp [evaluateChannel_vacant ha]
  | true =>
    cases hl : c.latch with
    | true => simp [evaluateChannel_latched ha hl]
    | false =>
      by_cases hv : (s.level z).value = 0
      · simp [evaluateChannel_unset ha hl hv, hv]
      · by_cases hd : c.state = .degraded
        · simp [evaluateChannel_degraded ha hl hv hd, hd]
        · rw [evaluateChannel_reads ha hl hv hd]
          cases c.temp <;> simp [hv, hd]

theorem scanChannel_enters : (scanChannel s z c).2 = true ↔
    s.active z.seat = true ∧ c.latch = false ∧ (s.level z).value ≠ 0 ∧ c.state ≠ .degraded ∧ c.temp = none := by
  by_cases h : s.active z.seat = true ∧ c.latch = false ∧ (s.level z).value ≠ 0 ∧ c.state = .degraded
  · obtain ⟨ha, hl, hv, hd⟩ := h
    rw [scanChannel_degraded ha hl hv hd]
    exact ⟨fun e => (Bool.false_ne_true e).elim, fun e => absurd hd e.2.2.2.1⟩
  · rw [scanChannel_other h]
    exact evaluateChannel_enters

/-- A zone of a level above 0 with a reading, not in DEGRADED, follows the control law. -/
theorem evaluateChannel_follows (ha : s.active z.seat = true) (hl : c.latch = false) (hv : (s.level z).value ≠ 0)
    (hd : c.state ≠ .degraded) {m : Int} (ht : c.temp = some m) :
    ((evaluateChannel s z c).1.request, (evaluateChannel s z c).1.state) = s.lawFor z (s.level z).value m := by
  rw [evaluateChannel_reads ha hl hv hd, ht]
  exact closedLoop_spec s z m c

/-- A zone of a level above 0 without a reading runs in DEGRADED, with no valid reading in a row where it enters it. -/
theorem evaluateChannel_blind (ha : s.active z.seat = true) (hl : c.latch = false) (hv : (s.level z).value ≠ 0)
    (ht : c.state = .degraded ∨ c.temp = none) : (evaluateChannel s z c).1.state = .degraded ∧
      (evaluateChannel s z c).1.request = s.openLoop (s.level z).value ∧
      (c.state ≠ .degraded → (evaluateChannel s z c).1.streak = 0) := by
  by_cases hd : c.state = .degraded
  · rw [evaluateChannel_degraded ha hl hv hd]
    exact ⟨(setRequest_state _ _).trans hd, (setRequest_spec _ _).1, fun e => absurd hd e⟩
  · rw [evaluateChannel_reads ha hl hv hd, ht.resolve_left hd]
    exact ⟨setRequest_state _ _, (setRequest_spec _ _).1, fun _ => setRequest_streak _ _⟩

end

/-- The state whose zones a scan evaluates: all readings stored. -/
def State.readingsStored (s : State) (v : PerSeat (Five Int)) : State := storeScan v { s with scanned := true, scanTimer := s.scanPeriod }

theorem zone_readingsStored (s : State) (v : PerSeat (Five Int)) (z : ZoneId) :
    (s.readingsStored v).zone z = { s.zone z with temp := validReading ((v.get z.seat).get z.part) } := by
  obtain ⟨x, p⟩ := z
  cases x <;> cases p <;> rfl

theorem zone_scannedMean (v : PerSeat (Five Int)) (sum count : Nat) (s : State) (z : ZoneId) :
    (s.scannedMean v sum count).zone z =
      (scanChannel (s.readingsStored v) z { s.zone z with temp := validReading ((v.get z.seat).get z.part) }).1 := by
  show (scanZones (s.readingsStored v)).zone z = _
  rw [scanZones_eq, zone_putZones _ _ (nodup_of_sorted allZones_sorted), if_pos (mem_allZones z), zone_readingsStored]

theorem validReading_none {m : Int} : validReading m = none ↔ ¬ (-400 ≤ m ∧ m ≤ 1500) := by
  unfold validReading
  split <;> simp_all

theorem validReading_some {m : Int} (h : -400 ≤ m ∧ m ≤ 1500) : validReading m = some m := if_pos h

/-- The state that a scan's pass leaves, its peak started at its total (spec/04 R65). -/
def State.scanPassed (s : State) : State := (passCore s).modBudget fun b => { b with peak := b.result.total }

theorem scanPassed_result (u : State) : u.scanPassed.budget.peak = u.scanPassed.budget.result.total ∧
    u.scanPassed.budget.result = allocate u.scanPassed.passInput := ⟨rfl, result_passCore u⟩

/-- A scan: what follows its pass, and in an air system at rest the pass itself. -/
theorem taken_scan (v : PerSeat (Five Int)) (sum count : Nat) {s : State} (h : s.awake) :
    ∃ t, taken (completeScan v sum count) s = .next t ∧ Followed (checkOverdraw (s.scannedMean v sum count)) t ∧
      t.budget.stepPeak = none ∧
      (s.airQuiet = true → t = (checkOverdraw (s.scannedMean v sum count)).scanPassed) := by
  generalize hu : checkOverdraw (s.scannedMean v sum count) = u
  have effect : completeScan v sum count s = takePermission u.scanPassed := by rw [← hu]; rfl
  have clear : u.scanPassed.budget.stepPeak = none := by
    have before : u.budget.stepPeak = none := by rw [← hu]; exact (checkOverdraw_spec _ rfl rfl).2.2.1
    exact (Stirs.pass (P := fun _ => True) (.same u)).stepPeak_none before
  have air : AirAlike s u := by
    rw [← hu, checkOverdraw_touches, scannedMean_eq]
    exact ⟨rfl, rfl, rfl⟩
  have stirs : Stirs (fun _ => True) u.scanPassed (completeScan v sum count s) := by
    rw [effect]
    exact stirs_takePermission (.same _)
  have followed : Followed u u.scanPassed :=
    (followed_passCore u).trans ⟨rfl, fun _ _ h _ => h, fun _ _ _ => rfl, fun _ _ _ _ => rfl, fun _ h => h, fun h => h⟩
  by_cases hq : s.airQuiet = true
  · have quiet := air.quiet hq
    obtain ⟨-, holder, -⟩ := (airQuiet_iff u).mp quiet
    have passed : AirAlike u u.scanPassed := (airAlike_passCore u).trans ⟨rfl, rfl, rfl⟩
    have refused : u.scanPassed.budget.result.permitted = false :=
      (congrArg Allocation.permitted (budget_passCore u).1).trans (permitted_of_quiet quiet)
    have still : completeScan v sum count s = u.scanPassed := by
      rw [effect]
      refine (takePermission_refused _ refused).trans ?_
      rw [passed.pneu, holder]
    have alike := air.trans passed
    refine ⟨u.scanPassed, ?_, followed, clear, fun _ => rfl⟩
    rw [← still] at alike ⊢
    exact taken_quiet _ s h (alike.reports.trans h.2.1) (alike.releases.trans h.2.2)
  · have all (r : Releases) := stirs.trans ((stirs_settle reportBound (completeScan v sum count s)).releases r)
    exact ⟨_, taken_awake _ s h, followed.trans (all _).followed, (all _).stepPeak_none clear, fun q => absurd q hq⟩

/-- Settles O38: the stored readings, each zone's row, the overdraw check and the scan's pass. -/
theorem scanCompletionActs : Obligations.ScanCompletionActs := by
  intro v sum count s h readings
  let y := s.scannedMean v sum count
  have params : y.params = s.params := by
    show (s.scannedMean v sum count).params = _
    rw [scannedMean_eq]
  have budget : y.budget = s.budget := by
    show (s.scannedMean v sum count).budget = _
    rw [scannedMean_eq]
  have supply : y.supply = { s.supply with
      measured := min 1000 (meanOf (s.supply.itotSum + sum) readings), itotSum := 0, itotCount := 0 } := by
    show (s.scannedMean v sum count).supply = _
    rw [scannedMean_eq]
  refine ⟨min 1000 (meanOf (s.supply.itotSum + sum) readings), Nat.min_le_left _ _,
    fun hr => congrArg (min 1000) (if_neg (by omega)), ?_⟩
  intro run peak exceeds d
  obtain ⟨t, ht, followed, clear, quiet⟩ := taken_scan v sum count h
  have touches := checkOverdraw_touches y
  have found : y.budget.peakFound = peak ∧ y.budget.runFound = run := by
    rw [budget]
    refine ⟨rfl, ?_⟩
    show (if s.budget.stepPeak.isSome then 2 else s.budget.overdrawRun) = if s.budget.stepPeak = none then _ else 2
    cases s.budget.stepPeak <;> rfl
  have margin : y.overdrawMargin = s.overdrawMargin := by
    unfold State.overdrawMargin State.param
    rw [params]
  have cap : y.bandCap = s.bandCap := by
    unfold State.bandCap State.shedCeiling State.param
    rw [params, supply]
  have check := checkOverdraw_spec y found.1 found.2
  rw [margin, cap, budget, supply] at check
  obtain ⟨derate, overdraw, -, drops⟩ := check
  have kept := budget_of_bystander followed.bystander
  have scanned : t.scanned = true ∧ t.scanTimer = s.scanPeriod ∧ t.supply = y.supply := by
    have timer : t.scanTimer = (checkOverdraw y).scanTimer := (congrArg (fun u : State => u.scanTimer) followed.bystander :)
    rw [scanned_of_bystander followed.bystander, timer, supply_of_bystander followed.bystander, touches]
    show (s.scannedMean v sum count).scanned = true ∧ (s.scannedMean v sum count).scanTimer = _ ∧ _
    rw [scannedMean_eq]
    exact ⟨rfl, rfl, rfl⟩
  refine ⟨t, ht, scanned.1, scanned.2.1, scanned.2.2.trans supply, (congrArg Budget.derate kept).trans derate,
    (congrArg Budget.overdrawRun kept).trans overdraw, clear, fun he hr => ?_, fun hq => ?_, ?_, ?_⟩
  · obtain ⟨ceff, told⟩ := drops he hr
    exact ⟨(congrArg Budget.cEff kept).trans ceff, followed.toldGateway rfl told⟩
  · rw [quiet hq]
    exact scanPassed_result _
  · intro enters z hz last
    have mine (w : ZoneId) : (scanChannel (s.readingsStored v) w ((s.readingsStored v).zone w)).2 = true ↔ enters w := by
      rw [scanChannel_enters, zone_readingsStored]
      exact and_congr_right fun _ => and_congr_right fun _ => and_congr_right fun _ => and_congr_right fun _ => validReading_none
    intro m hr he
    refine followed.notices m _ (checkOverdraw_keeps ?_ ?_) rfl
    · show _ ∈ ((scanZones (s.readingsStored v)).notices.get m).pending
      rw [scanZones_eq]
      exact told_putZones _ allZones allZones_sorted (v := s) (mem_allZones z) ((mine z).mpr hz)
        (fun w _ hw hs => last w ((mine w).mp hw) hs) rfl m hr he
    · intro e
      cases e
  · intro z m valid heats level law
    have zone : (t.zone z).ungranted =
        (scanChannel (s.readingsStored v) z { s.zone z with temp := validReading m }).1.ungranted := by
      refine (zone_of_bystander followed.bystander z).trans (congrArg ZoneChannel.ungranted ?_)
      rw [touches]
      exact zone_scannedMean v sum count s z
    have request : (t.zone z).request = _ := (congrArg ZoneChannel.request zone :)
    have state : (t.zone z).state = _ := (congrArg ZoneChannel.state zone :)
    have streak : (t.zone z).streak = _ := (congrArg ZoneChannel.streak zone :)
    have temp : (t.zone z).temp = validReading m :=
      ((congrArg ZoneChannel.temp zone :)).trans (congrArg (·.1) (scanChannel_kept (s.readingsStored v) z _))
    rw [request, state, streak, temp]
    have reads (hs : (s.zone z).state ≠ .degraded) : scanChannel (s.readingsStored v) z { s.zone z with temp := validReading m } =
        evaluateChannel (s.readingsStored v) z { s.zone z with temp := validReading m } := scanChannel_other fun e => hs e.2.2.2
    have counts (hh : heats) (hs : (s.zone z).state = .degraded) :
        scanChannel (s.readingsStored v) z { s.zone z with temp := validReading m } =
          (scanDegraded (s.readingsStored v) z { s.zone z with temp := validReading m }, false) :=
      scanChannel_degraded hh.1 hh.2.1 hh.2.2 hs
    refine ⟨validReading_some, validReading_none.mpr, fun hh hs hv => ?_, fun hh hs hv => ?_, fun hh hs hv => ?_,
      fun hh hs hv hk => ?_, fun hh hs hv hk => ?_⟩
    · rw [reads hs]
      exact evaluateChannel_follows (c := { s.zone z with temp := validReading m }) hh.1 hh.2.1 hh.2.2 hs (validReading_some hv)
    · rw [reads hs]
      obtain ⟨degraded, open_, none_⟩ := evaluateChannel_blind (s := s.readingsStored v)
        (c := { s.zone z with temp := validReading m }) hh.1 hh.2.1 hh.2.2 (.inr (validReading_none.mpr hv))
      exact ⟨degraded, open_, none_ hs⟩
    · rw [counts hh hs, validReading_none.mpr hv]
      exact ⟨(setRequest_state _ _).trans hs, (setRequest_spec _ _).1, setRequest_streak _ _⟩
    · have stays : scanDegraded (s.readingsStored v) z { s.zone z with temp := some m } =
          setRequest (s.openLoop level) { s.zone z with temp := some m, streak := (s.zone z).streak + 1 } :=
        if_neg (by show ¬ 3 ≤ (s.zone z).streak + 1; omega)
      rw [counts hh hs, validReading_some hv, stays]
      exact ⟨(setRequest_state _ _).trans hs, (setRequest_spec _ _).1, setRequest_streak _ _⟩
    · have leaves : scanDegraded (s.readingsStored v) z { s.zone z with temp := some m } =
          closedLoop (s.readingsStored v) z m { s.zone z with temp := some m, streak := 0 } :=
        if_pos (by show 3 ≤ (s.zone z).streak + 1; omega)
      rw [counts hh hs, validReading_some hv, leaves]
      exact ⟨closedLoop_spec _ z m _, setRequest_streak _ _⟩

end Sys2Proof.Machine
end
section
/-! PROOFS. The debounce and the seat states it moves (O35). -/
namespace Sys2Proof.Machine

/-! ## The loads of a seat that returns to OCCUPIED (spec/02 R43, spec/03 R54) -/

theorem active_setOccupancy (x : Seat) (now : Occupancy) (t : OccTimer) (s : State) :
    (setOccupancy x now t s).active x = now.active := by
  unfold setOccupancy State.active
  rw [State.seat_modSeat]

theorem level_setOccupancy (x : Seat) (now : Occupancy) (t : OccTimer) (s : State) (z : ZoneId) :
    (setOccupancy x now t s).level z = s.level z := by
  obtain ⟨y, p⟩ := z
  cases x <;> cases y <;> rfl

theorem fanLevel_setOccupancy (x : Seat) (now : Occupancy) (t : OccTimer) (s : State) (f : FanId) :
    (setOccupancy x now t s).fanLevel f = s.fanLevel f := by
  obtain ⟨y, p⟩ := f
  cases x <;> cases y <;> rfl

/-- What an occupancy change leaves of the zones and fans of its seat. -/
theorem occupyLoads_zone (x : Seat) (s : State) (z : ZoneId) : (occupyLoads x s).zone z =
    if z.seat = x then (evaluateChannel s z (s.zone z)).1 else s.zone z := by
  unfold occupyLoads
  rw [rederiveSeatFans_eq, putFans_touches]
  show (evaluateSeatZones x s).zone z = _
  rw [evaluateSeatZones_eq, zone_putZones _ _ (nodup_of_sorted (seatZones_sorted x))]
  by_cases h : z.seat = x
  · rw [if_pos h, if_pos ((mem_seatZones_iff z x).mpr h)]
  · rw [if_neg h, if_neg fun m => h ((mem_seatZones_iff z x).mp m)]

theorem onLoads_evaluateSeatZones (x : Seat) (s : State) : s.onLoads (evaluateSeatZones x s) :=
  (onLoads_keep s).evaluateSeatZones x (onLoads_refl s)

theorem onLoads_occupyLoads (x : Seat) (s : State) : s.onLoads (occupyLoads x s) :=
  (onLoads_keep s).occupyLoads x (onLoads_refl s)

theorem fans_evaluateSeatZones (x : Seat) (s : State) : (evaluateSeatZones x s).fans = s.fans := by
  rw [evaluateSeatZones_eq]
  unfold putZones
  generalize seatZones x = l
  generalize evaluateChannel s = G
  induction l generalizing s with
  | nil => rfl
  | cons z l ih =>
    refine (ih (putEvaluated z (G z (s.zone z)) s)).trans ?_
    unfold putEvaluated raiseHeatFault
    split
    · rw [raiseSeat_touches]
      rfl
    · rfl

theorem occupyLoads_fan (x : Seat) (s : State) (f : FanId) : (occupyLoads x s).fan f =
    if f.seat = x then s.rederived f (s.fan f) else s.fan f := by
  have before : (evaluateSeatZones x s).fan f = s.fan f := by
    unfold State.fan
    rw [fans_evaluateSeatZones]
  have same : (evaluateSeatZones x s).rederived = s.rederived := by
    rw [onLoads_evaluateSeatZones x s]
    rfl
  unfold occupyLoads
  rw [rederiveSeatFans_eq, fan_putFans _ _ (nodup_seatFans x), before, same]
  by_cases h : f.seat = x
  · rw [if_pos h, if_pos ((mem_seatFans_iff f x).mpr h)]
  · rw [if_neg h, if_neg fun m => h ((mem_seatFans_iff f x).mp m)]

/-- The notices of an occupancy change are those of its zones. -/
theorem occupyLoads_notices (x : Seat) (s : State) :
    (occupyLoads x s).notices = (putZones (evaluateChannel s) (seatZones x) s).notices := by
  unfold occupyLoads
  rw [rederiveSeatFans_eq, putFans_touches]
  show (evaluateSeatZones x s).notices = _
  rw [evaluateSeatZones_eq]

theorem occupyLoads_keeps {x : Seat} {s : State} {p : Notice} {m : Master} (hp : p ∈ (s.notices.get m).pending)
    (hk : p.kind ≠ .heatFault) : p ∈ ((occupyLoads x s).notices.get m).pending := by
  rw [occupyLoads_notices]
  exact keeps_putZones _ _ (nodup_of_sorted (seatZones_sorted x)) hp fun y _ _ => rank_ne_of_kind p _ hk

/-! ## OCCUPIED (spec/01 R11, R13) -/

/-- A seat whose loads were off, returned to OCCUPIED, before its pass. -/
def State.occupiedAgain (s : State) (x : Seat) : State :=
  occupyLoads x (raiseOccupancy x .occupied (setOccupancy x .occupied .stopped s))

theorem raiseOccupancy_touches (x : Seat) (now : Occupancy) (s : State) :
    raiseOccupancy x now s = { s with notices := (raiseOccupancy x now s).notices } := raiseSeat_touches _ _ _ _ _

theorem occupiedAgain_rest (s : State) (x : Seat) : (s.occupiedAgain x).seats = (setOccupancy x .occupied .stopped s).seats ∧
    (s.occupiedAgain x).params = s.params ∧ AirAlike s (s.occupiedAgain x) := by
  have loads := onLoads_occupyLoads x (raiseOccupancy x .occupied (setOccupancy x .occupied .stopped s))
  unfold State.occupiedAgain
  rw [loads, raiseOccupancy_touches]
  exact ⟨rfl, rfl, rfl, rfl, rfl⟩

section

variable (s : State) (x : Seat)

theorem occupiedAgain_zone (z : ZoneId) (hz : z.seat = x) : (s.occupiedAgain x).zone z =
    (evaluateChannel (setOccupancy x .occupied .stopped s) z (s.zone z)).1 := by
  unfold State.occupiedAgain
  rw [occupyLoads_zone, if_pos hz, raiseOccupancy_touches]
  rfl

theorem occupiedAgain_fan (f : FanId) (hf : f.seat = x) : (s.occupiedAgain x).fan f =
    rederive true (s.fanLevel f).value (s.fan f) := by
  have active := active_setOccupancy x .occupied .stopped s
  unfold State.occupiedAgain
  rw [occupyLoads_fan, if_pos hf, raiseOccupancy_touches]
  show rederive ((setOccupancy x .occupied .stopped s).active f.seat) ((setOccupancy x .occupied .stopped s).fanLevel f).value (s.fan f) = _
  rw [hf, active, fanLevel_setOccupancy]
  rfl

theorem occupiedAgain_told : s.told (s.occupiedAgain x) .occupancy x (.occupancy .occupied) none := by
  intro m hr he
  refine occupyLoads_keeps ?_ (fun k => by cases k)
  exact raiseSeat_reaches (setOccupancy x .occupied .stopped s) _ _ _ _ m hr he

/-- The last of the zones that enter DEGRADED at the return tells the readers (notes/assumptions/39.md). -/
theorem occupiedAgain_heatFault {enters : ZoneId → Prop} (hE : ∀ y, y.seat = x →
      ((s.zone y).latch = false ∧ (s.level y).value ≠ 0 ∧ (s.zone y).state ≠ .degraded ∧ (s.zone y).temp = none ↔ enters y))
    {z : ZoneId} (hz : z.seat = x) (he : enters z) (last : ∀ y, y.seat = x → enters y → zoneNumber y ≤ zoneNumber z) :
    s.told (s.occupiedAgain x) .heatFault x (.heatFault z .sensor) none := by
  let u := raiseOccupancy x .occupied (setOccupancy x .occupied .stopped s)
  have touched : u = { setOccupancy x .occupied .stopped s with notices := u.notices } := raiseOccupancy_touches _ _ _
  have mine (y : ZoneId) (hy : y.seat = x) : (evaluateChannel u y (u.zone y)).2 = true ↔ enters y := by
    rw [evaluateChannel_enters, ← hE y hy]
    have active : u.active y.seat = true := by
      rw [touched, hy]
      exact active_setOccupancy x .occupied .stopped s
    have level : u.level y = s.level y := by
      rw [touched]
      exact level_setOccupancy x .occupied .stopped s y
    have zone : u.zone y = s.zone y := by
      rw [touched]
      rfl
    rw [active, level, zone]
    exact and_iff_right rfl
  have reach := told_putZones (evaluateChannel u) (seatZones x) (seatZones_sorted x) (v := s) (s := u) ((mem_seatZones_iff z x).mpr hz)
    ((mine z hz).mpr he)
    (fun y hy hye _ => last y ((mem_seatZones_iff y x).mp hy) ((mine y ((mem_seatZones_iff y x).mp hy)).mp hye))
    (by rw [touched]; rfl)
  rw [hz] at reach
  intro m hr hn
  show _ ∈ ((occupyLoads x u).notices.get m).pending
  rw [occupyLoads_notices]
  exact reach m hr hn

end

/-- A return to OCCUPIED of a seat whose loads were off: what follows it. -/
theorem taken_occupied {f : State → State} {s w : State} {x : Seat} (h : s.awake) (ha : AirAlike s w) (e : f s = enterOccupied x w)
    (ho : (w.seat x).occupancy = .standby ∨ (w.seat x).occupancy = .empty) :
    ∃ t, taken f s = .next t ∧ Followed (w.occupiedAgain x) t ∧
      (s.airQuiet = true → (w.seat x).occupancy = .standby → t.budget.result = allocate t.passInput) := by
  have air := ha.trans (occupiedAgain_rest w x).2.2
  cases ho with
  | inl hs =>
    have effect : enterOccupied x w = runPass (w.occupiedAgain x) := by
      unfold enterOccupied
      rw [hs] <;> rfl
    obtain ⟨t, ht, passed⟩ := taken_pass h (e.trans effect) air
    exact ⟨t, ht, passed.followed, fun hq _ => passed.result hq⟩
  | inr hs =>
    have effect : enterOccupied x w = runPass (selectCell x (w.occupiedAgain x)) := by
      unfold enterOccupied
      rw [hs] <;> rfl
    obtain ⟨t, ht, followed⟩ := taken_next f s h
    rw [e, effect] at followed
    have before := (stirs_runPass (P := fun _ => True) (stirs_selectCell (.same (w.occupiedAgain x)) x)).followed
    exact ⟨t, ht, before.trans followed, fun _ k => by rw [hs] at k; cases k⟩

/-- The fields that a return to OCCUPIED leaves of a channel, and of a demand, by the bystander. -/
theorem Followed.zone_state {u t : State} (h : Followed u t) (z : ZoneId) :
    (t.zone z).state = (u.zone z).state ∧ (t.zone z).request = (u.zone z).request :=
  ⟨(congrArg ZoneChannel.state (zone_of_bystander h.bystander z) :), (congrArg ZoneChannel.request (zone_of_bystander h.bystander z) :)⟩

theorem Followed.fan_demand {u t : State} (h : Followed u t) (f : FanId) : (t.fan f).demand = (u.fan f).demand :=
  (congrArg FanChannel.demand (fan_of_bystander h.bystander f) :)

/-- The debounced occupancy after a timer that has run out (spec/01 R9). -/
def State.debouncedNow (s : State) (x : Seat) : State :=
  s.modSeat x fun r => { r with debounceTimer := none, debounced := r.rawLevel }

theorem expireDebounce_timed {x : Seat} {s : State} (ht : (s.seat x).debounceTimer = some 0) : expireDebounce x s =
    if (s.seat x).rawLevel = (s.seat x).debounced then s.debouncedNow x
    else debouncedChange x (s.seat x).rawLevel (s.debouncedNow x) := if_neg fun h => h ht

theorem debouncedNow_seat (s : State) (x : Seat) :
    (s.debouncedNow x).seat x = { s.seat x with debounceTimer := none, debounced := (s.seat x).rawLevel } := State.seat_modSeat s x _

theorem debouncedNow_override (s : State) (x : Seat) : (s.debouncedNow x).override x = s.override x := rfl

theorem level_debouncedNow (s : State) (x : Seat) (z : ZoneId) : (s.debouncedNow x).level z = s.level z := by
  obtain ⟨y, p⟩ := z
  cases x <;> cases y <;> rfl

theorem fanLevel_debouncedNow (s : State) (x : Seat) (f : FanId) : (s.debouncedNow x).fanLevel f = s.fanLevel f := by
  obtain ⟨y, p⟩ := f
  cases x <;> cases y <;> rfl

/-- What a seat that returns to OCCUPIED is left with, by the state it returned in. -/
theorem occupied_loads {w t : State} {x : Seat} (followed : Followed (w.occupiedAgain x) t) (z : ZoneId) (hz : z.seat = x) :
    ((w.zone z).latch = false → (w.level z).value = 0 → (t.zone z).state = .off) ∧
    ((w.zone z).latch = true → (t.zone z).state = .fault) ∧
    ((w.zone z).latch = false → (w.level z).value ≠ 0 →
      ((w.zone z).state = .degraded ∨ (w.zone z).temp = none →
        (t.zone z).state = .degraded ∧ (t.zone z).request = w.openLoop (w.level z).value) ∧
      ∀ m, (w.zone z).temp = some m → (w.zone z).state ≠ .degraded →
        ((t.zone z).request, (t.zone z).state) = w.lawFor z (w.level z).value m) := by
  obtain ⟨state, request⟩ := followed.zone_state z
  have active : (setOccupancy x .occupied .stopped w).active z.seat = true := by
    rw [hz]
    exact active_setOccupancy x .occupied .stopped w
  have level := level_setOccupancy x .occupied .stopped w z
  rw [state, request, occupiedAgain_zone w x z hz]
  refine ⟨fun hl hv => ?_, fun hl => ?_, fun hl hv => ⟨fun hd => ?_, fun m hm hd => ?_⟩⟩
  · rw [evaluateChannel_unset active hl (by rw [level, hv])]
    rfl
  · rw [evaluateChannel_latched active hl]
    rfl
  · obtain ⟨degraded, open_, -⟩ := evaluateChannel_blind active hl (by rw [level]; exact hv) hd
    rw [level] at open_
    exact ⟨degraded, open_⟩
  · have follows := evaluateChannel_follows active hl (by rw [level]; exact hv) hd hm
    rw [level] at follows
    exact follows

/-- Settles O35: the debounce, and the return of a seat whose loads were off. -/
theorem occupancyFollowsItsInput : Obligations.OccupancyFollowsItsInput := by
  refine ⟨fun x b s h => ?_, ?_⟩
  · have still : (changeInput x b s).reports = s.reports ∧ (changeInput x b s).releases = s.releases := by
      unfold changeInput
      split <;> exact ⟨rfl, rfl⟩
    exact taken_quiet (changeInput x b) s h (still.1.trans h.2.1) (still.2.trans h.2.2)
  · intro x s h r level timed effective
    have now_ : s.debouncedNow x = r := rfl
    have seat := debouncedNow_seat s x
    have exactly (e : expireDebounce x s = r) : exec (.debounceExpiry x) s = .next r :=
      (taken_quiet (expireDebounce x) s h (by rw [e]; exact h.2.1) (by rw [e]; exact h.2.2)).trans (congrArg Host.Outcome.next e)
    have changed (he : effective) : expireDebounce x s = debouncedChange x level r := (expireDebounce_timed he.1).trans (if_neg he.2.1)
    have acts (he : effective) : debouncedChange x level r = if level = true then enterOccupied x r
        else if (r.seat x).occupancy = .occupied then enterVacating x r else r := if_neg fun o => by
      rw [show r.override x = s.override x from rfl, he.2.2] at o
      cases o
    have occupancy : (r.seat x).occupancy = (s.seat x).occupancy := (congrArg SeatRecord.occupancy seat :)
    refine ⟨fun ht => taken_still h (if_pos ht), fun ht hs => ?_, fun he hl ho => ?_, fun he hl ho => ?_, fun he hl ho => ?_,
      fun he hl ho => ?_, fun he hl ho => ?_⟩
    · refine exactly ((expireDebounce_timed ht).trans ?_)
      by_cases same : level = (s.seat x).debounced
      · exact if_pos same
      · exact (if_neg same).trans (if_pos (hs.resolve_left same))
    · refine exactly ((changed he).trans ((acts he).trans ((if_neg (by rw [hl]; decide)).trans (if_neg ?_))))
      rw [occupancy]
      exact ho
    · refine exactly ((changed he).trans ((acts he).trans ((if_pos hl).trans ?_)))
      unfold enterOccupied
      rw [occupancy, ho] <;> rfl
    · have effect : expireDebounce x s = runPass (setOccupancy x .vacating (.vacancy r.vacancyDelay) r) :=
        (changed he).trans ((acts he).trans ((if_neg (by rw [hl]; decide)).trans (if_pos (by rw [occupancy]; exact ho))))
      obtain ⟨t, ht, passed⟩ := taken_pass h effect ⟨rfl, rfl, rfl⟩
      exact ⟨t, ht, passed.followed.bystander, passed.result⟩
    · have effect : expireDebounce x s = runPass (setOccupancy x .occupied .stopped r) := by
        refine (changed he).trans ((acts he).trans ((if_pos hl).trans ?_))
        unfold enterOccupied
        rw [occupancy, ho] <;> rfl
      obtain ⟨t, ht, passed⟩ := taken_pass h effect ⟨rfl, rfl, rfl⟩
      exact ⟨t, ht, passed.result, passed.followed.bystander⟩
    · have effect : expireDebounce x s = enterOccupied x (s.debouncedNow x) := (changed he).trans ((acts he).trans (if_pos hl))
      rw [← occupancy, ← now_] at ho
      obtain ⟨t, ht, followed, result⟩ := taken_occupied (w := s.debouncedNow x) h ⟨rfl, rfl, rfl⟩ effect ho
      obtain ⟨seats, params, -⟩ := occupiedAgain_rest (s.debouncedNow x) x
      have record : (t.seat x).unreported = ({ (s.debouncedNow x).seat x with occupancy := .occupied, timer := .stopped } :
          SeatRecord).unreported := by
        refine (unreported_of_bystander followed.bystander x).trans (congrArg SeatRecord.unreported ?_)
        unfold State.seat
        rw [seats]
        exact State.seat_modSeat _ x _
      rw [seat] at record
      refine ⟨t, ht, (congrArg SeatRecord.occupancy record :), (congrArg SeatRecord.timer record :), ?_, ?_, fun z hz hl hv => ?_,
        fun z hz hl => ?_, fun z hz hl hv => ?_, ?_, fun hq hs => result hq (occupancy.trans hs),
        fun f hf => ?_, fun z => ?_, fun f => ?_, ?_⟩
      · exact ((congrArg SeatRecord.debounced record :)).trans hl
      · exact fun m hr he => followed.notices m _ (occupiedAgain_told (s.debouncedNow x) x m hr he) rfl
      · exact (occupied_loads followed z hz).1 hl (by rw [level_debouncedNow]; exact hv)
      · exact (occupied_loads followed z hz).2.1 hl
      · have law := (occupied_loads followed z hz).2.2 hl (by rw [level_debouncedNow]; exact hv)
        rw [level_debouncedNow] at law
        exact law
      · intro enters z hz last
        have raised := occupiedAgain_heatFault (s.debouncedNow x) x (enters := enters)
          (fun y hy => by rw [level_debouncedNow]; exact (and_iff_right hy).symm) hz.1 hz (fun y _ hy => last y hy)
        exact fun m hr he => followed.notices m _ (raised m hr he) rfl
      · rw [followed.fan_demand, occupiedAgain_fan _ x f hf, fanLevel_debouncedNow, (rederive_spec _ _ _).1]
        show fanDemand true (s.fanLevel f).value (s.fan f).state = _
        unfold fanDemand
        cases (s.fan f).state <;> rfl
      · rw [level_of_bystander followed.bystander]
        unfold State.level State.seat
        rw [seats]
        exact (level_setOccupancy x .occupied .stopped (s.debouncedNow x) z).trans (level_debouncedNow s x z)
      · rw [fanLevel_of_bystander followed.bystander]
        unfold State.fanLevel State.seat
        rw [seats]
        exact (fanLevel_setOccupancy x .occupied .stopped (s.debouncedNow x) f).trans (fanLevel_debouncedNow s x f)
      · exact (params_of_bystander followed.bystander).trans params

end Sys2Proof.Machine
end
section
/-! PROOFS. Laws that may speak of the reports still open, and of one requester apart from the others: what the arbiter keeps, and
what the requesters keep that a law lets act. -/
namespace Sys2Proof.Machine

/-! ## The arbiter -/

/-- The endings that a selection or a withdrawal makes. -/
def FillEnd.atOnce : FillEnd → Prop
  | .done _ _ | .overpressure _ | .withdrawn => True
  | .underfill _ | .leak _ | .suspend => False

/-- A law that every grant, ending and pass keeps, whoever has asked; the mark of a release that has selected stays in a command. -/
structure ArbKeep (P : State → Prop) : Prop where
  releases : ∀ r s, s.releases ≠ .selected → P s → P { s with releases := r } := by intro r s _ h; exact h
  pass : ∀ s, P s → P (passCore s) := by intro s h; rw [passCore_touches]; exact h
  tune : ∀ f s, (f s.pneu).queue = s.pneu.queue → (f s.pneu).vents = s.pneu.vents →
    (f s.pneu).holder.map Holder.entry = s.pneu.holder.map Holder.entry → P s → P (s.modPneu f) := by intro f s _ _ _ h; exact h
  grant : ∀ e s, s.pneu.holder = none → e ∈ s.pneu.queue → P s → P (grantEntry (.granted e) s)
  ended : ∀ h how s, s.pneu.holder.map Holder.entry = some h.entry → how.atOnce → P s → P (endFill h how s)
  requeued : ∀ h s, s.pneu.holder = some h → P s →
    P ((requeue h.entry s.pneu.parkNone s).report (.ended h.entry.requester .suspend))

theorem startCheck_atOnce {h : Holder} {p : Nat} {how : FillEnd} (e : startCheck h p = some how) : how.atOnce := by
  unfold startCheck at e
  split at e
  · cases e
    trivial
  · split at e
    · cases e
      trivial
    · cases e

namespace ArbKeep

variable {P : State → Prop} (K : ArbKeep P) {s : State}
include K

theorem orderSelector (d : SelPos) (h : P s) : P (orderSelector d s) := by
  unfold Machine.orderSelector
  split
  · exact h
  · exact K.tune _ s rfl rfl rfl h

theorem releaseTail (h : P s) : P (releaseTail s) := by
  have parked : P (if s.parksNowhere then Machine.orderSelector .neutral s else s) := by
    split
    · exact K.orderSelector .neutral h
    · exact h
  unfold Machine.releaseTail
  dsimp only
  split
  · exact K.pass _ parked
  · exact parked

theorem takeP0 (g : Holder) (hh : s.pneu.holder.map Holder.entry = some g.entry) (h : P s) : P (takeP0 g s) :=
  K.tune _ s rfl rfl hh.symm h

theorem marked (b : Bool) (h : P s) : P (if b then markSelected s else s) := by
  unfold markSelected
  split
  · split
    · rename_i hs
      exact K.releases _ s (by rw [hs]; exact fun e => nomatch e) h
    · exact h
  · exact h

theorem arbitrate (n : Nat) (b : Bool) (h : P s) : P (arbitrate n b s) := by
  induction n generalizing s b with
  | zero => exact h
  | succ n ih =>
    simp only [Machine.arbitrate]
    replace h : P (if b = true then shutAtRelease s else s) := by
      unfold shutAtRelease
      split
      · split
        · rename_i hs
          exact K.releases _ s (by rw [hs]; exact fun e => nomatch e) h
        · exact h
      · exact h
    generalize (if b = true then shutAtRelease s else s) = s at h
    split
    · rename_i hm
      split
      · rename_i e he
        have part := part_marked b s
        have free : (if b = true then markSelected s else s).pneu.holder = none := by
          rw [part]
          exact ((maySelect_iff s).mp hm).1
        have queued : e ∈ (if b = true then markSelected s else s).pneu.queue := by
          rw [part]
          exact (choose_mem he).1
        have granted := K.grant e _ free queued (K.marked b h)
        split
        · have begun := K.takeP0 (.granted e) rfl granted
          split
          · rename_i how hc
            exact ih true (K.ended _ _ _ rfl (startCheck_atOnce hc) begun)
          · exact K.tune _ _ rfl rfl rfl begun
        · exact K.orderSelector _ granted
      · split
        · exact K.releaseTail h
        · exact h
    · split
      · exact K.releaseTail h
      · exact h

theorem select (h : P s) : P (select s) := K.arbitrate _ _ h

theorem release (h : P s) : P (release s) := K.arbitrate _ _ h

theorem finishFill (h : Holder) (how : FillEnd) (hh : s.pneu.holder.map Holder.entry = some h.entry) (ha : how.atOnce) (k : P s) :
    P (finishFill h how s) := K.release (K.ended h how s hh ha k)

theorem takePermission (h : P s) : P (takePermission s) := by
  unfold Machine.takePermission
  split
  · exact K.select h
  · split
    · rename_i g hg
      have back := K.requeued g s hg h
      unfold suspend
      dsimp only
      split
      · exact K.pass _ back
      · exact back
    · exact h

theorem runPass (h : P s) : P (runPass s) := K.takePermission (K.pass s h)

/-- Two laws together. -/
theorem and {Q : State → Prop} (L : ArbKeep Q) : ArbKeep fun s => P s ∧ Q s where
  releases r s hn h := ⟨K.releases r s hn h.1, L.releases r s hn h.2⟩
  pass s h := ⟨K.pass s h.1, L.pass s h.2⟩
  tune f s hq hv hh h := ⟨K.tune f s hq hv hh h.1, L.tune f s hq hv hh h.2⟩
  grant e s hn hq h := ⟨K.grant e s hn hq h.1, L.grant e s hn hq h.2⟩
  ended g how s hh ha h := ⟨K.ended g how s hh ha h.1, L.ended g how s hh ha h.2⟩
  requeued g s hh h := ⟨K.requeued g s hh h.1, L.requeued g s hh h.2⟩

end ArbKeep

/-! ## A requester that asks -/

/-- A law that the requests of `r` keep. -/
structure MayAsk (P : State → Prop) (r : Requester) : Prop where
  replace : ∀ c g s, c ≠ 0 → s.isQueued r = true → P s →
    P (s.modPneu fun p => { p with queue := replaceEntry (requestEntry r c g) p.queue })
  rehold : ∀ c g s, c ≠ 0 → P s → P (requeue (requestEntry r c g) s.parksNowhere s)
  append : ∀ c g s, c ≠ 0 → P s → P (s.modPneu fun p => { p with queue := p.queue ++ [requestEntry r c g] })
  remove : ∀ s, P s → P (s.modPneu fun p => { p with queue := removeEntry r p.queue })
  unvent : ∀ s, P s → P (s.modPneu fun p => { p with vents := dropVent (.requester r) p.vents })

/-- A law that its fill requests keep, and their withdrawal. -/
structure MayFill (P : State → Prop) (r : Requester) : Prop where
  replace : ∀ c g s, c ≠ 0 → s.isQueued r = true → P s →
    P (s.modPneu fun p => { p with queue := replaceEntry (requestEntry r c g) p.queue })
  rehold : ∀ c g s, c ≠ 0 → P s → P (requeue (requestEntry r c g) s.parksNowhere s)
  append : ∀ c g s, c ≠ 0 → P s → P (s.modPneu fun p => { p with queue := p.queue ++ [requestEntry r c g] })
  remove : ∀ s, P s → P (s.modPneu fun p => { p with queue := removeEntry r p.queue })

theorem MayAsk.fills {P : State → Prop} {r : Requester} (A : MayAsk P r) : MayFill P r := ⟨A.replace, A.rehold, A.append, A.remove⟩

/-- A holder's fill that a requester has. -/
theorem heldBy_some {r : Requester} {s : State} {g : Holder} (h : s.heldBy r = some g) :
    s.pneu.holder = some g ∧ g.entry.requester = r := by
  unfold State.heldBy at h
  split at h
  · rename_i k hk
    split at h
    · rename_i hr
      cases h
      exact ⟨hk, hr⟩
    · cases h
  · cases h

/-- The state in which a vent over `c` is started: the fill that it reaches is over (spec/05 R91). -/
def State.freedFor (s : State) (r : Requester) (c : CellSet) : State :=
  match reachesFill (.requester r) c s.pneu with
  | some h => finishFill h .withdrawn s
  | none => s

theorem requestVent_eq {r : Requester} {c : CellSet} {s : State} (hc : c ≠ 0) : requestVent r c s =
    if (s.freedFor r c).pneu.vents? (.requester r) then select (startVent (.requester r) c (s.freedFor r c))
    else startVent (.requester r) c (s.freedFor r c) := by
  unfold requestVent
  dsimp only
  rw [if_neg hc]
  rfl

namespace ArbKeep

variable {P : State → Prop} (K : ArbKeep P) {s : State} {r : Requester}
include K

theorem requestFill (A : MayFill P r) (c : CellSet) (g : Nat) (hc : c ≠ 0) (h : P s) : P (requestFill r c g s) := by
  unfold Machine.requestFill
  dsimp only
  rw [if_neg hc]
  split
  · rename_i hq
    exact K.select (A.replace c g s hc hq h)
  · split
    · have headed := K.release (A.rehold c g s hc h)
      split
      · exact K.runPass headed
      · exact headed
    · have queued := A.append c g s hc h
      split
      · exact K.runPass queued
      · exact K.select queued

theorem withdraw (A : MayFill P r) (h : P s) : P (withdraw r s) := by
  unfold Machine.withdraw
  dsimp only
  split
  · have gone := A.remove s h
    split
    · exact K.runPass gone
    · exact gone
  · split
    · rename_i g hg
      exact K.finishFill g _ (by rw [(heldBy_some hg).1]; rfl) trivial h
    · exact h

theorem freedFor (c : CellSet) (h : P s) : P (s.freedFor r c) := by
  unfold State.freedFor
  split
  · rename_i g hg
    exact K.finishFill g _ (by rw [(reachesFill_some hg).1]; rfl) trivial h
  · exact h

/-- A vent request, for a law that its new operation keeps. -/
theorem requestVent (c : CellSet) (hc : c ≠ 0) (vent : ∀ u, P u → P (startVent (.requester r) c u)) (h : P s) :
    P (requestVent r c s) := by
  have freed : P (s.freedFor r c) := K.freedFor c h
  rw [requestVent_eq hc]
  split
  · exact K.select (vent _ freed)
  · exact vent _ freed

theorem cancelVent (A : MayAsk P r) (h : P s) : P (cancelVent r s) := by
  unfold Machine.cancelVent
  split
  · exact K.select (A.unvent s h)
  · exact h

end ArbKeep

/-! ## The requesters that a law lets act -/

/-- A law that the requesters of `ok` keep with their cursors and regulators, their requests and their vents. -/
structure MoveKeep (ok : Requester → Prop) (P : State → Prop) : Prop extends ArbKeep P where
  ask : ∀ r, ok r → MayAsk P r
  vent : ∀ r c s, ok r → c ≠ 0 → P s → P (startVent (.requester r) c s)
  cursor : ∀ x g s, ok (.massage x) → P s → P (s.modCursor x g) := by intro x g s _ h; exact h
  regulator : ∀ x g s, ok (.support x) →
    (g (s.regulator x)).cuts = (s.regulator x).cuts ∧ (g (s.regulator x)).marks = (s.regulator x).marks → P s →
    P (s.modRegulator x g) := by
    intro x g s _ _ h; exact h
  fault : ∀ x c s, ok (.support x) → P s →
    P ((s.setSetpoint x c ⟨0, .device⟩).modRegulator x fun r => { r with marks := r.marks.set c true }) := by
    intro x c s _ h; exact h
  airFault : ∀ r d s, ok r → P s → P (raiseSeat .airFault r.seat d none s) := by
    intro r d s _ h; rw [raiseSeat_touches]; exact h
  programEnd : ∀ x d s, ok (.massage x) → P s → P (raiseSeat .programEnd x d none s) := by
    intro x d s _ h; rw [raiseSeat_touches]; exact h
  read : ∀ i s, P s → P (readRecord i s) := by intro i s h; rw [readRecord_touches]; exact h

/-- The bit of a holding cell among the bits of the cells. -/
theorem cellBit_getLsbD (k c : HoldCell) : (cellBit k).getLsbD (cellNumber c) = decide (k = c) := by cases k <;> cases c <;> rfl

/-- The venting set is the set of the cells whose need is VENT. -/
theorem ventingSet_getLsbD (g : Regulator) (c : HoldCell) :
    g.ventingSet.getLsbD (cellNumber c) = decide (g.needs.get c = .vent) := by
  have join (a : CellSet) (k : HoldCell) : (if g.needs.get k = .vent then a ||| cellBit k else a).getLsbD (cellNumber c) =
      (a.getLsbD (cellNumber c) || decide (g.needs.get k = .vent ∧ k = c)) := by
    split
    · rename_i h
      rw [BitVec.getLsbD_or, cellBit_getLsbD]
      simp [h]
    · rename_i h
      simp [h]
  simp only [Regulator.ventingSet, holdCells, List.foldl_cons, List.foldl_nil, join]
  cases c <;> simp

/-- A regulator with a cell to vent has a venting set. -/
theorem ventingSet_ne_zero {g : Regulator} {c : HoldCell} (h : g.needs.get c = .vent) : g.ventingSet ≠ 0 := by
  intro e
  have bit := ventingSet_getLsbD g c
  rw [e, h] at bit
  simp at bit

end Sys2Proof.Machine
end
section
/-! PROOFS. What the requesters that a law lets act keep: the cursors, the regulators, and the reports they take. -/
namespace Sys2Proof.Machine

namespace MoveKeep

variable {ok : Requester → Prop} {P : State → Prop} (K : MoveKeep ok P) {s : State} {x : Seat}
include K

/-! ## Requests -/

theorem fill {r : Requester} (hr : ok r) (c : CellSet) (g : Nat) (hc : c ≠ 0) (h : P s) : P (requestFill r c g s) :=
  K.requestFill (K.ask r hr).fills c g hc h

theorem withdrawn {r : Requester} (hr : ok r) (h : P s) : P (withdraw r s) := K.toArbKeep.withdraw (K.ask r hr).fills h

theorem vented {r : Requester} (hr : ok r) (c : CellSet) (hc : c ≠ 0) (h : P s) : P (requestVent r c s) :=
  K.requestVent c hc (fun u => K.vent r c u hr hc) h

/-! ## The cursors -/

section

variable (hx : ok (.massage x))
include hx

theorem withdrawCursor (h : P s) : P (withdrawCursor x s) := by
  unfold Machine.withdrawCursor
  split
  · exact K.withdrawn hx h
  · exact h

theorem enterEnding (c : EndCause) (h : P s) : P (enterEnding x c s) :=
  K.vented hx _ (by decide) (K.cursor x _ _ hx (K.withdrawCursor hx h))

theorem enterFault (c : FaultCode) (h : P s) : P (enterFault x c s) :=
  K.airFault (.massage x) _ _ hx (K.vented hx _ (by decide) (K.cursor x _ _ hx (K.withdrawCursor hx h)))

theorem beginFillWait (c : CellSet) (hc : c ≠ 0) (h : P s) : P (beginFillWait x c s) := K.fill hx c _ hc (K.cursor x _ _ hx h)

theorem beginDwell (h : P s) : P (beginDwell x s) := K.cursor x _ _ hx h

theorem enterStep (n : Nat) (i : StepIndex) (h : P s) : P (enterStep n x i s) := by
  induction n generalizing s i with
  | zero => exact h
  | succ n ih =>
    simp only [Machine.enterStep]
    split
    · exact K.enterFault hx _ (K.cursor x _ _ hx (K.read i s h))
    · rename_i f _
      have k : P (takeStep x i f s) := K.cursor x _ _ hx (K.read i s h)
      split
      · rename_i hv
        exact K.vented hx _ hv (K.cursor x _ _ hx k)
      · split
        · rename_i hf
          exact K.beginFillWait hx _ hf k
        · split
          · exact K.beginDwell hx k
          · split
            · exact K.enterFault hx _ k
            · have u := K.cursor x (fun c => { c with counter := c.advance.2 }) _ hx k
              split
              · exact ih _ u
              · exact K.enterEnding hx _ u
              · exact K.enterFault hx _ u

theorem advanceCursor (h : P s) : P (advanceCursor x s) := by
  have u := K.cursor x (fun c => { c with counter := c.advance.2, phaseMs := 0 }) s hx h
  simp only [Machine.advanceCursor]
  split
  · exact K.enterStep hx _ _ u
  · exact K.enterEnding hx _ u
  · exact K.enterFault hx _ u

theorem dwellOrAdvance (h : P s) : P (dwellOrAdvance x s) := by
  unfold Machine.dwellOrAdvance
  split
  · exact K.beginDwell hx h
  · exact K.advanceCursor hx h

theorem cursorVentComplete (h : P s) : P (cursorVentComplete x s) := by
  unfold Machine.cursorVentComplete ventPhaseDone
  split
  · split
    · split
      · split
        · rename_i hf
          exact K.beginFillWait hx _ hf h
        · exact K.dwellOrAdvance hx h
      · exact K.dwellOrAdvance hx h
    · exact h
  · exact K.programEnd x _ _ hx (K.cursor x _ _ hx h)
  all_goals exact h

theorem cursorGranted (h : P s) : P (cursorGranted x s) := by
  unfold Machine.cursorGranted
  split
  · exact K.cursor x _ _ hx h
  · exact h

theorem cursorFilled (b : Bool) (h : P s) : P (cursorFilled x b s) := by
  simp only [Machine.cursorFilled]
  split
  · split
    · have k := K.cursor x (fun c => { c with hops := c.hops + 1 }) s hx h
      split
      · exact K.enterFault hx _ k
      · exact K.advanceCursor hx k
    · exact K.dwellOrAdvance hx h
  · exact K.dwellOrAdvance hx (K.cursor x _ _ hx h)

theorem cursorOutcome (how : FillEnd) (hu : ∀ m, how = .underfill m → P (countUnderfill x s)) (h : P s) :
    P (cursorOutcome x how s) := by
  unfold Machine.cursorOutcome
  split
  · cases how with
    | done b _ => exact K.cursorFilled hx b h
    | underfill m => exact K.cursorFilled hx false (hu m rfl)
    | leak _ => exact K.enterFault hx _ h
    | overpressure _ => exact K.enterFault hx _ h
    | suspend => exact K.cursor x _ _ hx h
    | withdrawn => exact h
  · exact h

end

/-! ## The regulators -/

section

variable (hx : ok (.support x))
include hx

theorem setService (v : Service) (h : P s) : P (s.setService x v) := K.regulator x _ s hx ⟨rfl, rfl⟩ h

theorem setNeed (c : HoldCell) (n : Need) (h : P s) : P (s.setNeed x c n) := K.regulator x _ s hx ⟨rfl, rfl⟩ h

theorem selectCell (h : P s) : P (selectCell x s) := by
  unfold Machine.selectCell
  split
  · split
    · rename_i c _
      exact K.fill hx _ _ (by cases c <;> decide) (K.setService hx _ h)
    · exact h
  · exact h

theorem joinVent (c : HoldCell) (h : P s) : P (joinVent x c s) := by
  refine K.vented hx _ (ventingSet_ne_zero (c := c) ?_) (K.setNeed hx c .vent h)
  show ((s.setNeed x c .vent).regulator x).needs.get c = .vent
  rw [State.setNeed, State.regulator_modRegulator, Four.get_set_same]

theorem faultCell (c : HoldCell) (o : CellOutcome) (h : P s) : P (faultCell x c o s) :=
  K.airFault (.support x) _ _ hx (K.joinVent hx c (K.fault x c s hx h))

theorem supportGranted (h : P s) : P (supportGranted x s) := by
  unfold Machine.supportGranted
  split
  · exact K.setService hx _ h
  all_goals exact h

theorem supportSuspended (h : P s) : P (supportSuspended x s) := by
  unfold Machine.supportSuspended
  split
  · exact K.setService hx _ h
  all_goals exact h

theorem supportOutcome (how : FillEnd) (h : P s) : P (supportOutcome x how s) := by
  unfold Machine.supportOutcome
  split
  · exact h
  · cases how with
    | done _ _ => exact K.selectCell hx (K.setService hx _ (K.setNeed hx _ _ h))
    | underfill _ => exact K.selectCell hx (K.setService hx _ (K.setNeed hx _ _ h))
    | leak _ => exact K.selectCell hx (K.faultCell hx _ _ (K.setService hx _ h))
    | overpressure _ => exact K.selectCell hx (K.faultCell hx _ _ (K.setService hx _ h))
    | suspend => exact K.supportSuspended hx h
    | withdrawn => exact h

theorem supportVentComplete (h : P s) : P (supportVentComplete x s) := by
  unfold Machine.supportVentComplete
  split
  · exact h
  · exact K.selectCell hx (K.regulator x _ s hx ⟨rfl, rfl⟩ h)

end

end MoveKeep

/-! ## Reports -/

/-- The requester that a report goes to. -/
def Report.requester : Report → Requester
  | .granted r => r
  | .ended r _ => r
  | .ventComplete r => r

/-- A law that the reports keep: those of the requesters of `ok`, and what it says itself of the others. -/
structure SettleKeep (ok : Requester → Prop) (P : State → Prop) : Prop extends MoveKeep ok P where
  moment : ∀ r s, P s → P { s with releases := r } := by intro r s h; exact h
  take : ∀ r rest s, s.reports = r :: rest → P s → P { s with reports := rest } := by intro r rest s _ h; exact h
  underfill : ∀ x m rest s, s.reports = .ended (.massage x) (.underfill m) :: rest → ok (.massage x) → P s →
    P (countUnderfill x { s with reports := rest }) := by intro x m rest s _ _ h; exact h
  inert : ∀ r rest s, s.reports = r :: rest → ¬ ok r.requester → P s → P (takeReport r { s with reports := rest })

namespace SettleKeep

variable {ok : Requester → Prop} {P : State → Prop} (K : SettleKeep ok P) {s : State}
include K

/-- A report that one of the requesters takes. -/
theorem taken_report (r : Report) (rest : List Report) (e : s.reports = r :: rest) (h : P s) :
    P (takeReport r { s with reports := rest }) := by
  have k := K.take r rest s e h
  by_cases hr : ok r.requester
  · cases r with
    | granted who => cases who with
      | massage x => exact K.cursorGranted hr k
      | support x => exact K.supportGranted hr k
    | ended who how => cases who with
      | massage x =>
        refine K.cursorOutcome hr how (fun m hm => ?_) k
        subst hm
        exact K.underfill x m rest s e hr h
      | support x => exact K.supportOutcome hr how k
    | ventComplete who => cases who with
      | massage x => exact K.cursorVentComplete hr k
      | support x => exact K.supportVentComplete hr k
  · exact K.inert r rest s e hr h

theorem settle (n : Nat) (h : P s) : P (settle n s) := by
  induction n generalizing s with
  | zero => exact h
  | succ n ih =>
    unfold Machine.settle
    split
    · exact h
    · rename_i r rest e
      exact ih (K.taken_report r rest e h)

/-- What a command leaves, where its effect meets the law. -/
theorem taken_keeps {f : State → State} (ha : s.awake) (h : P (f s)) : ∃ t, taken f s = .next t ∧ P t :=
  ⟨_, taken_awake f s ha, K.moment _ _ (K.settle reportBound h)⟩

end SettleKeep

/-! ## The reports grow at their end -/

/-- The open reports begin with `l`. -/
def State.opens (l : List Report) (s : State) : Prop := l <+: s.reports

theorem opens_keep (l : List Report) : MoveKeep (fun _ => True) (State.opens l) where
  grant e s _ _ h := h.trans (List.prefix_append _ _)
  ended g how s _ _ h := by
    have kept : s.reports <+: (endFill g how s).reports := by
      unfold endFill
      dsimp only
      split <;> exact List.prefix_append _ _
    exact h.trans kept
  requeued g s _ h := h.trans (List.prefix_append _ _)
  ask r _ := ⟨fun _ _ _ _ _ h => h, fun _ _ _ _ h => h, fun _ _ _ _ h => h, fun _ h => h, fun _ h => h⟩
  vent r c s _ _ h := h

end Sys2Proof.Machine
end
section
/-! PROOFS. A cursor that the reports leave alone: its record, its vent operations and its place outside the queue stand. -/
namespace Sys2Proof.Machine

/-! ## The operations of one owner -/

/-- The owner's operations in the list. -/
def Pneumatic.opsOf (p : Pneumatic) (o : VentOwner) : List VentOp := p.vents.filter fun v => v.owner == o

theorem mem_opsOf {p : Pneumatic} {o : VentOwner} {v : VentOp} : v ∈ p.opsOf o ↔ v ∈ p.vents ∧ v.owner = o := by
  simp [Pneumatic.opsOf]

theorem filter_insertVent_other (q : VentOp → Bool) (v : VentOp) (l : List VentOp) (h : q v = false) :
    (insertVent v l).filter q = l.filter q := by
  induction l with
  | nil => simp [insertVent, h]
  | cons w l ih =>
    unfold insertVent
    split
    · simp [h]
    · simp [List.filter_cons, ih]

theorem filter_insertVent_same (q : VentOp → Bool) (v : VentOp) (l : List VentOp) (h : q v = true) (hl : l.filter q = []) :
    (insertVent v l).filter q = [v] := by
  induction l with
  | nil => simp [insertVent, h]
  | cons w l ih =>
    have hw : q w = false := by simpa using (List.filter_eq_nil_iff.mp hl) w (List.mem_cons_self ..)
    have hl' : l.filter q = [] := by simpa [hw] using hl
    unfold insertVent
    split
    · simp [h, hw, hl']
    · simp [hw, ih hl']

theorem filter_dropVent_other {o k : VentOwner} (l : List VentOp) (h : k ≠ o) :
    (dropVent k l).filter (fun v => v.owner == o) = l.filter (fun v => v.owner == o) := by
  unfold dropVent
  rw [List.filter_filter]
  refine List.filter_congr fun v _ => ?_
  by_cases e : v.owner = o
  · simp [e, h.symm]
  · simp [e]

theorem filter_dropVent_same (o : VentOwner) (l : List VentOp) : (dropVent o l).filter (fun v => v.owner == o) = [] := by
  unfold dropVent
  rw [List.filter_filter]
  simp

theorem opsOf_startVent_other {o k : VentOwner} (c : CellSet) (s : State) (h : k ≠ o) :
    (startVent k c s).pneu.opsOf o = s.pneu.opsOf o := by
  have own : (k == o) = false := by simpa using h
  show List.filter _ (if c = 0 then dropVent k s.pneu.vents else insertVent _ (dropVent k s.pneu.vents)) = _
  split
  · exact filter_dropVent_other _ h
  · rw [filter_insertVent_other _ _ _ own]
    exact filter_dropVent_other _ h

theorem opsOf_startVent_same (o : VentOwner) (c : CellSet) (s : State) (hc : c ≠ 0) :
    (startVent o c s).pneu.opsOf o = [⟨o, c, s.ventWindow⟩] := by
  show List.filter _ (if c = 0 then dropVent o s.pneu.vents else insertVent _ (dropVent o s.pneu.vents)) = _
  rw [if_neg hc]
  exact filter_insertVent_same _ _ _ (by simp) (filter_dropVent_same o _)

theorem startVent_mem (o : VentOwner) {c : CellSet} (s : State) (hc : c ≠ 0) :
    (⟨o, c, s.ventWindow⟩ : VentOp) ∈ (startVent o c s).pneu.vents := by
  refine (mem_opsOf (o := o).mp ?_).1
  rw [opsOf_startVent_same o c s hc]
  exact List.mem_singleton.mpr rfl

theorem opsOf_endFill {o : VentOwner} (g : Holder) (how : FillEnd) (s : State) (h : ∀ y, o ≠ .relief y) :
    (endFill g how s).pneu.opsOf o = s.pneu.opsOf o := by
  unfold endFill
  dsimp only
  split
  · exact opsOf_startVent_other _ _ fun e => h _ e.symm
  · rfl

theorem mem_reports_endFill {g : Holder} {how : FillEnd} {s : State} :
    (endFill g how s).reports = s.reports ++ [.ended g.entry.requester how] := by
  unfold endFill
  dsimp only
  split <;> rfl

theorem queue_endFill (g : Holder) (how : FillEnd) (s : State) : (endFill g how s).pneu.queue = s.pneu.queue := by
  unfold endFill
  dsimp only
  split <;> rfl

/-! ## Neither queued nor granted -/

theorem queue_grantEntry (g : Holder) (s : State) :
    (grantEntry g s).pneu.queue = removeEntry g.entry.requester s.pneu.queue := rfl

theorem vents_grantEntry (g : Holder) (s : State) : (grantEntry g s).pneu.vents = s.pneu.vents := countGrant_vents _ _ _

theorem absent_of_entries {s : State} {r : Requester} (hq : ∀ e ∈ s.pneu.queue, e.requester ≠ r)
    (hh : ∀ e, s.pneu.holder.map Holder.entry = some e → e.requester ≠ r) : s.absent r :=
  ⟨hq, fun h e => hh h.entry (by rw [e]; rfl)⟩

theorem absent_keep (r : Requester) : ArbKeep (State.absent r) where
  tune f s hq _ hh h := by
    refine absent_of_entries (fun e he => h.1 e (by rwa [← hq])) fun e he => ?_
    rw [show (s.modPneu f).pneu.holder.map Holder.entry = _ from hh] at he
    obtain ⟨g, hg, rfl⟩ := Option.map_eq_some_iff.mp he
    exact h.2 g hg
  grant e s _ hm h := by
    refine ⟨fun q hq => ?_, fun g hg => ?_⟩
    · rw [queue_grantEntry] at hq
      exact h.1 q ((removeEntry_sublist _ _).subset hq)
    · cases hg
      exact h.1 e hm
  ended g how s _ _ h := by
    refine ⟨fun e he => h.1 e (by rwa [queue_endFill] at he), fun k hk => ?_⟩
    rw [endFill_holder] at hk
    cases hk
  requeued g s hg h := by
    refine ⟨fun e he => ?_, fun k hk => by cases hk⟩
    cases he with
    | head => exact h.2 g hg
    | tail _ m => exact h.1 e m

theorem absent_ask {r q : Requester} (hq : q ≠ r) : MayAsk (State.absent r) q where
  replace c g s _ _ h := by
    refine ⟨fun e he => ?_, h.2⟩
    obtain ⟨w, hw, rfl⟩ := List.mem_map.mp he
    split
    · exact hq
    · exact h.1 w hw
  rehold c g s _ h := by
    refine ⟨fun e he => ?_, fun k hk => by cases hk⟩
    cases he with
    | head => exact hq
    | tail _ m => exact h.1 e m
  append c g s _ h := by
    refine ⟨fun e he => ?_, h.2⟩
    cases List.mem_append.mp he with
    | inl m => exact h.1 e m
    | inr m => rw [List.mem_singleton.mp m]; exact hq
  remove s h := ⟨fun e he => h.1 e ((removeEntry_sublist _ _).subset he), h.2⟩
  unvent s h := h

/-- A withdrawal from a lawful queue leaves the requester out of it (spec/05 R95). -/
theorem absent_withdraw {s : State} (r : Requester) (h : s.queueLaws) : (withdraw r s).absent r := by
  have out (l : List Entry) : ∀ e ∈ removeEntry r l, e.requester ≠ r := fun e he => ((mem_removeEntry r l e).mp he).2
  unfold withdraw
  dsimp only
  split
  · rename_i hq
    have gone : (s.modPneu fun p => { p with queue := removeEntry r p.queue }).absent r := by
      refine ⟨out _, fun g hg e => ?_⟩
      obtain ⟨w, hw, hr⟩ := List.any_eq_true.mp hq
      exact (h.2.2.1 g hg).2.2 w hw ((by simpa using hr : w.requester = r).trans e.symm)
    split
    · exact (absent_keep r).runPass gone
    · exact gone
  · rename_i hq
    have waits : ∀ e ∈ s.pneu.queue, e.requester ≠ r := fun e he k => hq (List.any_eq_true.mpr ⟨e, he, by simpa using k⟩)
    split
    · rename_i g hg
      refine (absent_keep r).release ⟨fun e he => waits e (by rwa [queue_endFill] at he), fun k hk => ?_⟩
      rw [endFill_holder] at hk
      cases hk
    · rename_i hn
      refine ⟨waits, fun g hg e => ?_⟩
      have held : s.heldBy r = some g := by
        unfold State.heldBy
        rw [hg]
        exact if_pos e
      rw [held] at hn
      cases hn

/-! ## No vent of the requester is reported complete -/

/-- No VENT COMPLETE is open for the requester. -/
def State.unreported (s : State) (r : Requester) : Prop := .ventComplete r ∉ s.reports

theorem unreported_append {s t : State} {r : Requester} {w : Report} (h : s.unreported r) (e : t.reports = s.reports ++ [w])
    (hw : w ≠ .ventComplete r) : t.unreported r := by
  unfold State.unreported
  rw [e]
  exact fun m => (List.mem_append.mp m).elim h fun k => hw (List.mem_singleton.mp k).symm

theorem unreported_keep (r : Requester) : MoveKeep (fun _ => True) (State.unreported · r) where
  grant e s _ _ h := unreported_append (w := .granted e.requester) h rfl (by intro k; cases k)
  ended g how s _ _ h := unreported_append h mem_reports_endFill (by intro k; cases k)
  requeued g s _ h := unreported_append (s := requeue g.entry s.pneu.parkNone s) h rfl (by intro k; cases k)
  ask q _ := ⟨fun _ _ _ _ _ h => h, fun _ _ _ _ h => h, fun _ _ _ _ h => h, fun _ h => h, fun _ h => h⟩
  vent q c s _ _ h := h

/-! ## The resting cursor -/

/-- The cursor's record and its vent operations are these, no vent of it is reported complete, and where `b` holds it neither waits
for a fill nor has one. -/
structure State.rests (x : Seat) (c : Cursor) (V : List VentOp) (b : Prop) (s : State) : Prop where
  cursor : s.cursor x = c
  ops : s.pneu.opsOf (.requester (.massage x)) = V
  unreported : s.unreported (.massage x)
  absent : b → s.absent (.massage x)

section

variable {x : Seat} {c : Cursor} {V : List VentOp} {b : Prop}

/-- The arbiter keeps a resting cursor. -/
theorem rests_arb : ArbKeep (State.rests x c V b) where
  releases r s _ h := ⟨h.cursor, h.ops, h.unreported, h.absent⟩
  pass s h := by
    have a := (absent_keep (.massage x)).pass s
    rw [passCore_touches] at a ⊢
    exact ⟨h.cursor, h.ops, h.unreported, fun k => a (h.absent k)⟩
  tune f s hq hv hh h := by
    refine ⟨h.cursor, ?_, h.unreported, fun k => (absent_keep _).tune f s hq hv hh (h.absent k)⟩
    show List.filter _ (f s.pneu).vents = _
    rw [hv]
    exact h.ops
  grant e s hn hm h := by
    refine ⟨h.cursor, ?_, (unreported_keep _).grant e s hn hm h.unreported, fun k => (absent_keep _).grant e s hn hm (h.absent k)⟩
    unfold Pneumatic.opsOf
    rw [vents_grantEntry]
    exact h.ops
  ended g how s hh ha h := by
    refine ⟨?_, (opsOf_endFill g how s (fun _ k => by cases k)).trans h.ops, (unreported_keep _).ended g how s hh ha h.unreported,
      fun k => (absent_keep _).ended g how s hh ha (h.absent k)⟩
    exact ((stirs_endFill (P := fun _ => False) (.same s) g how).cursor_still x (fun k => k)).trans h.cursor
  requeued g s hg h := ⟨h.cursor, h.ops, (unreported_keep _).requeued g s hg h.unreported,
    fun k => (absent_keep _).requeued g s hg (h.absent k)⟩

theorem rests_ask {q : Requester} (hq : q ≠ .massage x) : MayAsk (State.rests x c V b) q where
  replace k g s hc hk h := ⟨h.cursor, h.ops, h.unreported, fun i => (absent_ask hq).replace k g s hc hk (h.absent i)⟩
  rehold k g s hk h := ⟨h.cursor, h.ops, h.unreported, fun i => (absent_ask hq).rehold k g s hk (h.absent i)⟩
  append k g s hk h := ⟨h.cursor, h.ops, h.unreported, fun i => (absent_ask hq).append k g s hk (h.absent i)⟩
  remove s h := ⟨h.cursor, h.ops, h.unreported, fun i => (absent_ask hq).remove s (h.absent i)⟩
  unvent s h := ⟨h.cursor, (filter_dropVent_other _ (fun e => hq (VentOwner.requester.inj e))).trans h.ops, h.unreported,
    fun i => (absent_ask hq).unvent s (h.absent i)⟩

/-- A report other than VENT COMPLETE changes nothing at a cursor that neither waits for a fill nor has one. -/
theorem takeReport_massage {s : State} {w : Report} (hw : w.requester = .massage x) (hv : w ≠ .ventComplete (.massage x))
    (hc : (s.cursor x).fillPhase = false) : takeReport w s = s := by
  cases w with
  | granted r =>
    cases hw
    refine if_neg fun h => ?_
    unfold Cursor.fillPhase at hc
    rw [h.1, h.2] at hc
    cases hc
  | ended r how =>
    cases hw
    exact if_neg (by rw [hc]; decide)
  | ventComplete r =>
    cases hw
    exact absurd rfl hv

/-- Whatever the other requesters do, a cursor that neither waits for a fill nor has one rests. -/
theorem rests_keep (hc : c.fillPhase = false) : SettleKeep (· ≠ .massage x) (State.rests x c V b) where
  toArbKeep := rests_arb
  moment _ _ h := ⟨h.cursor, h.ops, h.unreported, h.absent⟩
  ask q hq := rests_ask hq
  vent q k s hq _ h := ⟨h.cursor, (opsOf_startVent_other k s fun e => hq (VentOwner.requester.inj e)).trans h.ops, h.unreported, h.absent⟩
  cursor y g s hy h := ⟨(State.cursor_modCursor_other s y x g (fun e => hy (by rw [e]))).trans h.cursor, h.ops, h.unreported, h.absent⟩
  regulator y g s _ _ h := ⟨h.cursor, h.ops, h.unreported, h.absent⟩
  fault y k s _ h := ⟨h.cursor, h.ops, h.unreported, h.absent⟩
  airFault r d s _ h := by
    rw [raiseSeat_touches]
    exact ⟨h.cursor, h.ops, h.unreported, h.absent⟩
  programEnd y d s _ h := by
    rw [raiseSeat_touches]
    exact ⟨h.cursor, h.ops, h.unreported, h.absent⟩
  read i s h := by
    rw [readRecord_touches]
    exact ⟨h.cursor, h.ops, h.unreported, h.absent⟩
  take w rest s e h := ⟨h.cursor, h.ops, fun m => h.unreported (by rw [e]; exact List.mem_cons_of_mem _ m), h.absent⟩
  underfill y m rest s e _ h := ⟨h.cursor, h.ops, fun i => h.unreported (by rw [e]; exact List.mem_cons_of_mem _ i), h.absent⟩
  inert w rest s e hw h := by
    have own : w.requester = .massage x := Classical.not_not.mp hw
    rw [takeReport_massage own (fun i => h.unreported (by rw [e, i]; exact List.mem_cons_self ..)) (by
      show (s.cursor x).fillPhase = false
      rw [h.cursor, hc])]
    exact ⟨h.cursor, h.ops, fun m => h.unreported (by rw [e]; exact List.mem_cons_of_mem _ m), h.absent⟩

end

end Sys2Proof.Machine
end
section
/-! PROOFS. Where a cursor comes to rest, and what requests do in an air system at rest, behind another's grant, or in a starved part. -/
namespace Sys2Proof.Machine

/-! ## Where a cursor comes to rest -/

theorem stirs_freedFor {P : Seat → Prop} (s : State) (r : Requester) (k : CellSet) : Stirs P s (s.freedFor r k) := by
  unfold State.freedFor
  split
  · exact stirs_finishFill (.same s) _ _
  · exact .same s

section

variable {s : State} {x : Seat} {b : Prop}

/-- A cursor with its vent begun rests (spec/05 R91). -/
theorem rests_requestVent {k : CellSet} (hk : k ≠ 0) (ho : s.unreported (.massage x)) (ha : b → s.absent (.massage x)) :
    (requestVent (.massage x) k s).rests x (s.cursor x) [⟨.requester (.massage x), k, s.ventWindow⟩] b := by
  have freed : (s.freedFor (.massage x) k).rests x (s.cursor x) (s.pneu.opsOf (.requester (.massage x))) b :=
    rests_arb.freedFor k ⟨rfl, rfl, ho, ha⟩
  have window : (s.freedFor (.massage x) k).ventWindow = s.ventWindow :=
    param_of_bystander (stirs_freedFor (P := fun _ => True) s (.massage x) k).bystander 49
  have vented : (startVent (.requester (.massage x)) k (s.freedFor (.massage x) k)).rests x (s.cursor x)
      [⟨.requester (.massage x), k, s.ventWindow⟩] b := by
    rw [← window]
    exact ⟨freed.cursor, opsOf_startVent_same _ k _ hk, freed.unreported, freed.absent⟩
  rw [requestVent_eq hk]
  split
  · exact rests_arb.select vented
  · exact vented

/-- A cursor whose vent is cancelled rests (spec/05 R92). -/
theorem rests_cancelVent (ho : s.unreported (.massage x)) (ha : b → s.absent (.massage x)) :
    (cancelVent (.massage x) s).rests x (s.cursor x) [] b := by
  unfold cancelVent
  split
  · exact rests_arb.select ⟨rfl, filter_dropVent_same _ _, ho, ha⟩
  · rename_i h
    refine ⟨rfl, ?_, ho, ha⟩
    refine List.filter_eq_nil_iff.mpr fun v hv e => h ?_
    exact List.any_eq_true.mpr ⟨v, hv, e⟩

/-- Its withdrawal leaves the cursor and its vent operations. -/
theorem withdraw_cursor (r : Requester) : (withdraw r s).cursor x = s.cursor x :=
  (stirs_withdraw (P := fun _ => False) (.same s) r).cursor_still x (fun k => k)

theorem withdrawCursor_cursor : (withdrawCursor x s).cursor x = s.cursor x := by
  unfold withdrawCursor
  split
  · exact withdraw_cursor _
  · rfl

theorem withdrawCursor_window : (withdrawCursor x s).ventWindow = s.ventWindow :=
  param_of_bystander (stirs_withdrawCursor (P := fun _ => True) (.same s) x).bystander 49

theorem withdrawCursor_unreported (ho : s.unreported (.massage x)) : (withdrawCursor x s).unreported (.massage x) :=
  (unreported_keep (.massage x)).withdrawCursor trivial ho

/-- Out of a fill phase, and out of a lawful queue, the cursor leaves no entry and no grant. -/
theorem withdrawCursor_absent (hq : s.queueLaws) (hf : (s.cursor x).fillPhase = true) : (withdrawCursor x s).absent (.massage x) := by
  unfold withdrawCursor
  rw [if_pos hf]
  exact absent_withdraw _ hq

/-- A cursor that has entered ENDING rests (spec/07 R149). -/
theorem rests_enterEnding (cause : EndCause) (ho : s.unreported (.massage x)) (ha : b → (withdrawCursor x s).absent (.massage x)) :
    (enterEnding x cause s).rests x ((s.cursor x).ended cause) [⟨.requester (.massage x), massageCells, s.ventWindow⟩] b := by
  have vent := rests_requestVent (s := (withdrawCursor x s).modCursor x (Cursor.ended cause)) (x := x) (b := b) (k := massageCells)
    (by decide) (withdrawCursor_unreported ho) ha
  rw [State.cursor_modCursor, withdrawCursor_cursor] at vent
  rw [← withdrawCursor_window (s := s) (x := x)]
  exact vent

/-- A cursor that has entered FAULT rests (spec/07 R151). -/
theorem rests_enterFault (code : FaultCode) (ho : s.unreported (.massage x)) (ha : b → (withdrawCursor x s).absent (.massage x)) :
    (enterFault x code s).rests x ((s.cursor x).faulted code) [⟨.requester (.massage x), massageCells, s.ventWindow⟩] b := by
  have vent := rests_requestVent (s := (withdrawCursor x s).modCursor x (Cursor.faulted code)) (x := x) (b := b) (k := massageCells)
    (by decide) (withdrawCursor_unreported ho) ha
  rw [State.cursor_modCursor, withdrawCursor_cursor] at vent
  rw [← withdrawCursor_window (s := s) (x := x)]
  unfold enterFault
  dsimp only
  rw [raiseSeat_touches]
  exact ⟨vent.cursor, vent.ops, vent.unreported, vent.absent⟩

end

theorem State.rests.vents {x : Seat} {c : Cursor} {v : VentOp} {b : Prop} {s : State} (h : s.rests x c [v] b) : v ∈ s.pneu.vents := by
  have own : v ∈ s.pneu.opsOf (.requester (.massage x)) := by
    rw [h.ops]
    exact List.mem_singleton.mpr rfl
  exact (mem_opsOf.mp own).1

theorem State.rests.no_vent {x : Seat} {c : Cursor} {b : Prop} {s : State} (h : s.rests x c [] b) :
    ∀ v ∈ s.pneu.vents, v.owner ≠ .requester (.massage x) := by
  intro v hv e
  have own := mem_opsOf.mpr ⟨hv, e⟩
  rw [h.ops] at own
  exact nomatch own

/-- A law that a command's effect meets and the reports keep, beside what every command keeps. -/
theorem SettleKeep.taken_both {ok : Requester → Prop} {P : State → Prop} (K : SettleKeep ok P) {f : State → State} {s : State}
    (ha : s.awake) (h : P (f s)) : ∃ t, taken f s = .next t ∧ P t ∧ Followed (f s) t := by
  obtain ⟨t, ht, hp⟩ := K.taken_keeps ha h
  obtain ⟨u, hu, followed⟩ := taken_next f s ha
  cases Host.Outcome.next.inj (ht.symm.trans hu)
  exact ⟨t, ht, hp, followed⟩

/-- A law of the whole part that a last-result record does not reach. -/
theorem rests_recordResult {x : Seat} {c : Cursor} {V : List VentOp} {b : Prop} {m : Master} {code : Byte} {y : Option Seat}
    {s : State} {r : ResultCode} (h : s.rests x c V b) : (recordResult m code y (s, r)).rests x c V b :=
  ⟨h.cursor, h.ops, h.unreported, h.absent⟩

theorem cursor_raiseSeat (k : NoticeKind) (y : Seat) (d : Detail) (e : Option Master) (s : State) (x : Seat) :
    (raiseSeat k y d e s).cursor x = s.cursor x := by
  rw [raiseSeat_touches]
  rfl

/-! ## Marks (spec/07 R135) -/

section

variable (m : Master) (x : Seat) (s : State)

theorem cursor_markCursor : (markCursor m x s).cursor x = { s.cursor x with origin := m.origin } := by
  exact (cursor_raiseSeat _ _ _ _ _ x).trans (State.cursor_modCursor s x _)

theorem markCursor_touches : markCursor m x s =
    { s.modCursor x (fun c => { c with origin := m.origin }) with notices := (markCursor m x s).notices } := raiseSeat_touches _ _ _ _ _

theorem markCursor_told {v : State} (ha : s.access = v.access) : v.told (markCursor m x s) .changed x (.changed .cursor) (some m) := by
  intro k hr he
  refine raiseSeat_reaches _ _ _ _ _ k ?_ he
  unfold State.mayRead at hr ⊢
  rw [← ha] at hr
  exact hr

theorem bystander_markCursor : (markCursor m x s).bystander = (s.modCursor x fun c => { c with origin := m.origin }).bystander :=
  bystander_raiseSeat _ _ _ _ _

end

/-! ## Requests that lead to no selection -/

section

variable {s : State}

theorem arbitrate_empty (n : Nat) (h : s.pneu.queue = []) : arbitrate n false s = s := by
  have none_ : choose s = none := by
    rw [choose_eq_none, h]
    exact fun e he => nomatch he
  cases n with
  | zero => rfl
  | succ n =>
    simp only [arbitrate, Bool.false_eq_true, if_false]
    rw [none_]
    split <;> rfl

theorem arbitrate_held (n : Nat) (h : s.pneu.holder ≠ none) : arbitrate n false s = s := by
  cases n with
  | zero => rfl
  | succ n =>
    simp only [arbitrate, Bool.false_eq_true, if_false]
    exact if_neg fun e => h ((maySelect_iff s).mp e).1

theorem select_empty (h : s.pneu.queue = []) : select s = s := arbitrate_empty _ h

theorem select_held (h : s.pneu.holder ≠ none) : select s = s := arbitrate_held _ h

theorem isQueued_of_empty (r : Requester) (h : s.pneu.queue = []) : s.isQueued r = false := by
  unfold State.isQueued
  rw [h]
  rfl

theorem heldBy_of_free (r : Requester) (h : s.pneu.holder = none) : s.heldBy r = none := by
  unfold State.heldBy
  rw [h] <;> rfl

/-- In an air system at rest there is nothing to withdraw. -/
theorem withdraw_quiet (r : Requester) (hq : s.pneu.queue = []) (hh : s.pneu.holder = none) : withdraw r s = s := by
  unfold withdraw
  rw [isQueued_of_empty r hq, heldBy_of_free r hh] <;> rfl

theorem withdrawCursor_quiet (x : Seat) (hq : s.pneu.queue = []) (hh : s.pneu.holder = none) : withdrawCursor x s = s := by
  unfold withdrawCursor
  split
  · exact withdraw_quiet _ hq hh
  · rfl

theorem freedFor_free (r : Requester) (k : CellSet) (hh : s.pneu.holder = none) : s.freedFor r k = s := by
  unfold State.freedFor reachesFill
  rw [hh] <;> rfl

/-- In an air system at rest a vent request starts its operation and no more (spec/05 R91). -/
theorem requestVent_quiet (r : Requester) {k : CellSet} (hk : k ≠ 0) (hq : s.pneu.queue = []) (hh : s.pneu.holder = none) :
    requestVent r k s = startVent (.requester r) k s := by
  rw [requestVent_eq hk, freedFor_free r k hh]
  split
  · exact select_empty hq
  · rfl

/-- A fill request behind another's grant waits at the tail (spec/05 R94). -/
theorem requestFill_behind {r : Requester} {c : CellSet} (g : Nat) {h : Holder} (hc : c ≠ 0) (hh : s.pneu.holder = some h)
    (hr : h.entry.requester ≠ r) (hn : s.pneu.queue ≠ []) (hq : ∀ e ∈ s.pneu.queue, e.requester ≠ r) :
    requestFill r c g s = s.modPneu fun p => { p with queue := p.queue ++ [requestEntry r c g] } := by
  have waits : s.isQueued r = false := by
    refine List.any_eq_false.mpr fun e he k => hq e he ?_
    simpa using k
  have held : s.heldBy r = none := by
    unfold State.heldBy
    rw [hh]
    exact if_neg hr
  have full : s.pneu.queue.isEmpty = false := by simpa using hn
  unfold requestFill
  dsimp only
  rw [if_neg hc, waits, held, full]
  exact select_held (s := s.modPneu fun p => { p with queue := p.queue ++ [requestEntry r c g] }) (by
    show s.pneu.holder ≠ none
    rw [hh]
    exact fun k => nomatch k)

/-- A pass at a C_eff within the overhead refuses the pump (spec/04 R71). -/
theorem permitted_of_starved (h : s.budget.cEff ≤ s.overhead) : (allocate s.passInput).permitted = false := by
  have starved := allocate_starved s.passInput h
  rw [starved]

/-- A fill request in a starved part with no grant and an empty queue waits alone; the pass refuses the pump (spec/04 R71). -/
theorem requestFill_starved {r : Requester} {c : CellSet} (g : Nat) (hc : c ≠ 0) (hq : s.pneu.queue = []) (hh : s.pneu.holder = none)
    (hs : s.budget.cEff ≤ s.overhead) :
    requestFill r c g s = passCore (s.modPneu fun p => { p with queue := [requestEntry r c g] }) := by
  have empty : s.pneu.queue.isEmpty = true := by rw [hq]; rfl
  have alone : s.modPneu (fun p => { p with queue := p.queue ++ [requestEntry r c g] }) =
      s.modPneu fun p => { p with queue := [requestEntry r c g] } := by
    unfold State.modPneu
    dsimp only
    rw [hq]
    rfl
  unfold requestFill
  dsimp only
  rw [if_neg hc, isQueued_of_empty r hq, heldBy_of_free r hh, empty]
  show runPass (s.modPneu fun p => { p with queue := p.queue ++ [requestEntry r c g] }) = _
  rw [alone]
  exact runPass_refused (permitted_of_starved (s := s.modPneu fun p => { p with queue := [requestEntry r c g] }) hs) hh

theorem passCore_reports : (passCore s).reports = s.reports ∧ (passCore s).releases = s.releases := by
  rw [passCore_touches]
  exact ⟨rfl, rfl⟩

end

end Sys2Proof.Machine
end
section
/-! PROOFS. PAUSE, RESUME and STOP PROGRAM (O20, O21). -/
namespace Sys2Proof.Machine

/-- A write command whose owner's effect `v` comes of `w` by what a pass and the reports it leads to can do, and meets a law that the
reports keep. -/
theorem SettleKeep.taken_write_law {ok : Requester → Prop} {P : State → Prop} (K : SettleKeep ok P)
    (results : ∀ s r, P s → P (State.withResults s r)) {f : State → State} {s v w : State} {m : Master} {code : Byte}
    {y : Option Seat} {c : ResultCode} (h : s.onBus) (e : f { s with bus := .idle } = recordResult m code y (v, c))
    (stirs : Stirs (fun _ => True) w v) (hw : w.results = s.results) (hv : P v) :
    ∃ t, taken (writeRow f) s = .next t ∧ P t ∧ Followed (w.withResults (s.results.set m ⟨c, some code, y⟩)) t := by
  have kept : v.results = s.results := (results_of_bystander stirs.bystander).trans hw
  have effect : writeRow f s = v.withResults (s.results.set m ⟨c, some code, y⟩) := by
    rw [writeRow_onBus f s h, e, ← kept]
    rfl
  obtain ⟨t, ht, hp, followed⟩ := K.taken_both (f := writeRow f) h.1 (by rw [effect]; exact results _ _ hv)
  rw [effect] at followed
  exact ⟨t, ht, hp, (stirs.followed.beside (beside_withResults _)).trans followed⟩

/-- The law that asks nothing. -/
theorem true_keep : SettleKeep (fun _ => True) (fun _ => True) where
  pass _ h := h
  grant _ _ _ _ h := h
  ended _ _ _ _ _ h := h
  requeued _ _ _ h := h
  ask _ _ := ⟨fun _ _ _ _ _ h => h, fun _ _ _ _ h => h, fun _ _ _ _ h => h, fun _ h => h, fun _ h => h⟩
  vent _ _ _ _ _ h := h
  airFault _ _ _ _ h := h
  programEnd _ _ _ _ h := h
  read _ _ h := h
  inert _ _ _ _ _ h := h

theorem rests_withResults {x : Seat} {c : Cursor} {V : List VentOp} {b : Prop} {s : State} (r : PerMaster LastResult)
    (h : s.rests x c V b) : (s.withResults r).rests x c V b := ⟨h.cursor, h.ops, h.unreported, h.absent⟩

/-- A write command whose owner makes no report. -/
theorem taken_write_exact {f : State → State} {s v : State} {m : Master} {code : Byte} {y : Option Seat} {c : ResultCode} (h : s.onBus)
    (e : f { s with bus := .idle } = recordResult m code y (v, c)) (hr : v.reports = s.reports) (hs : v.releases = s.releases) :
    taken (writeRow f) s = .next (recordResult m code y (v, c)) := by
  rw [← e]
  exact taken_write h f (by rw [e]; exact hr.trans h.1.2.1) (by rw [e]; exact hs.trans h.1.2.2)

theorem unreported_of_awake {s : State} {r : Requester} (h : s.reports = []) : s.unreported r := by
  unfold State.unreported
  rw [h]
  exact fun m => nomatch m

theorem cursor_startVent (o : VentOwner) (c : CellSet) (s : State) (x : Seat) : (startVent o c s).cursor x = s.cursor x := rfl

theorem cursor_recordResult (m : Master) (code : Byte) (y : Option Seat) (v : State) (c : ResultCode) (x : Seat) :
    (recordResult m code y (v, c)).cursor x = v.cursor x := rfl

/-! ## STOP PROGRAM (spec/07 R156) -/

theorem takeStopProgram_eq {m : Master} {x : Seat} {u : State} (hw : u.mayWrite m x.region = true) :
    takeStopProgram m (byteOf (seatCode x)) u = recordResult m 0x17 (some x) (stopAt m x u) := by
  unfold takeStopProgram
  rw [seatOfCode_seatCode, atCursor_some _ _ (seatOfCode_seatCode x)]
  exact congrArg (recordResult _ _ _) (if_pos hw)

theorem enterEnding_quiet {s : State} {x : Seat} (cause : EndCause) (hq : s.pneu.queue = []) (hh : s.pneu.holder = none) :
    enterEnding x cause s = startVent (.requester (.massage x)) massageCells (s.modCursor x (Cursor.ended cause)) := by
  unfold enterEnding
  rw [withdrawCursor_quiet x hq hh]
  exact requestVent_quiet _ (by decide) hq hh

theorem markCursor_air (m : Master) (x : Seat) (s : State) : AirAlike s (markCursor m x s) := by
  rw [markCursor_touches]
  exact ⟨rfl, rfl, rfl⟩

theorem unreported_markCursor {m : Master} {x : Seat} {s : State} {r : Requester} (h : s.unreported r) :
    (markCursor m x s).unreported r := by
  unfold State.unreported
  rw [(markCursor_air m x s).reports]
  exact h

/-- The laws of the queue look at the air system and the rotation limit alone. -/
theorem queueLaws_markCursor {m : Master} {x : Seat} {s : State} (h : s.queueLaws) : (markCursor m x s).queueLaws := by
  rw [markCursor_touches]
  exact h

theorem followed_told {s u t : State} {k : NoticeKind} {x : Seat} {d : Detail} {e : Option Master} (h : Followed u t)
    (hk : k.isReported = false) (hu : s.told u k x d e) : s.told t k x d e :=
  fun m hr he => h.notices m _ (hu m hr he) hk

/-- Settles O21: the end by STOP, its vent and what it withdraws. -/
theorem stopProgramEnds : Obligations.StopProgramEnds := by
  intro m x s h hw cmd r
  let s' : State := { s with bus := .idle }
  have effect := takeStopProgram_eq (u := s') hw
  refine ⟨fun hs => ?_, fun hs => ?_, fun hs => ?_⟩
  · have own : stopAt m x s' = refuse .ok s' := by
      unfold stopAt
      cases hs with
      | inl e => rw [show (s'.cursor x).state = _ from e] <;> rfl
      | inr e => rw [show (s'.cursor x).state = _ from e] <;> rfl
    exact taken_refused h (by rw [effect, own])
  · have own : stopAt m x s' = (markCursor m x (s'.modCursor x Cursor.idled), .ok) := by
      unfold stopAt
      rw [show (s'.cursor x).state = _ from hs] <;> rfl
    rw [own] at effect
    refine (taken_write_exact h effect ((markCursor_air m x _).reports.trans rfl) ((markCursor_air m x _).releases.trans rfl)).trans
      (congrArg Host.Outcome.next ?_)
    unfold markCursor raiseChanged
    rw [modCursor_modCursor, recordResult_raise]
    rfl
  · let w := markCursor m x s'
    have own : stopAt m x s' = (enterEnding x .stopped w, .ok) := by
      unfold stopAt
      cases hs with
      | inl e => rw [show (s'.cursor x).state = _ from e] <;> rfl
      | inr e => rw [show (s'.cursor x).state = _ from e] <;> rfl
    rw [own] at effect
    have cursor := cursor_markCursor m x s'
    let fills : Prop := (s.cursor x).fillPhase = true ∧ s.queueLaws
    have rest := rests_enterEnding (s := w) (x := x) (b := fills) .stopped
      (unreported_markCursor (unreported_of_awake h.1.2.1)) (fun f => withdrawCursor_absent (queueLaws_markCursor f.2) (by
        rw [cursor]
        exact f.1))
    obtain ⟨t, ht, rests, followed⟩ := (rests_keep (x := x) (b := fills) (by rfl)).taken_write_law (fun _ r => rests_withResults r) h
      effect (stirs_enterEnding (.same w) x trivial .stopped) ((results_of_bystander (bystander_markCursor m x s')).trans rfl) rest
    have window : w.ventWindow = s.ventWindow := (param_of_bystander (bystander_markCursor m x s') 49).trans rfl
    refine ⟨t, ht, rests.cursor.trans (congrArg (Cursor.ended .stopped) cursor), ?_, followed.bystander.trans ?_, ?_,
      fun hr hp hq => ?_, fun hq => ?_⟩
    · exact followed_told followed rfl (markCursor_told m x s' (v := s) rfl)
    · exact congrArg (State.withResults · (s.results.set m ⟨.ok, some 0x17, some x⟩)) (bystander_markCursor m x s')
    · rw [← window]
      exact rests.vents
    · refine rests.absent ⟨?_, hq⟩
      unfold Cursor.fillPhase
      rw [hr]
      cases hp with
      | inl e => rw [e]; rfl
      | inr e => rw [e]; rfl
    · obtain ⟨queue, holder, -⟩ := (airQuiet_iff s).mp hq
      have air := markCursor_air m x s'
      have still := enterEnding_quiet (s := w) (x := x) .stopped (by rw [air.pneu]; exact queue) (by rw [air.pneu]; exact holder)
      have exactly := taken_write_exact h effect (by rw [still]; exact air.reports) (by rw [still]; exact air.releases)
      rw [Host.Outcome.next.inj (ht.symm.trans exactly), still]
      show w.pneu.holder = none
      rw [air.pneu]
      exact holder

/-! ## PAUSE (spec/07 R154) -/

/-- Two cursors that agree in intensity, speed and origin have the same bystander. -/
theorem bystander_modCursor_congr {p q : State} (x : Seat) {f g : Cursor → Cursor} (h : p.bystander = q.bystander)
    (hf : ∀ c d : Cursor, c.idled = d.idled → (f c).idled = (g d).idled) :
    (p.modCursor x f).bystander = (q.modCursor x g).bystander := by
  have merged (u : State) (k : Cursor → Cursor) : (u.modCursor x k).bystander =
      { u.bystander with cursors := u.bystander.cursors.set x (k (u.cursor x)).idled } := by cases x <;> rfl
  rw [merged, merged, h, hf _ _ (cursor_of_bystander h x)]

theorem takePause_eq {m : Master} {x : Seat} {u : State} (hw : u.mayWrite m x.region = true) :
    takePause m (byteOf (seatCode x)) u = recordResult m 0x15 (some x) (pauseAt m x u) := by
  unfold takePause
  rw [seatOfCode_seatCode, atCursor_some _ _ (seatOfCode_seatCode x)]
  exact congrArg (recordResult _ _ _) (if_pos hw)

/-- The part as a PAUSE leaves it before the cursor's own change: what its phase has begun withdrawn. -/
def State.phaseLeft (s : State) (x : Seat) : State := cancelPhaseVent x (withdrawCursor x s)

theorem stirs_phaseLeft {P : Seat → Prop} (s : State) (x : Seat) : Stirs P s (s.phaseLeft x) := by
  unfold State.phaseLeft cancelPhaseVent
  split
  · exact stirs_cancelVent (stirs_withdrawCursor (.same s) x) _
  · exact stirs_withdrawCursor (.same s) x

/-- Its phase left, the cursor rests; a phase of venting leaves no operation, and one of filling neither an entry nor a grant. -/
theorem phaseLeft_rests {s : State} {x : Seat} (h : s.unreported (.massage x)) :
    ∃ V, (s.phaseLeft x).rests x (s.cursor x) V ((s.cursor x).fillPhase = true ∧ s.queueLaws) ∧
      ((s.cursor x).phase = .vent → V = []) := by
  have left := withdrawCursor_unreported h
  have cursor := withdrawCursor_cursor (s := s) (x := x)
  have out (f : (s.cursor x).fillPhase = true ∧ s.queueLaws) := withdrawCursor_absent f.2 f.1
  unfold State.phaseLeft cancelPhaseVent
  by_cases hv : (s.cursor x).phase = .vent
  · rw [if_pos (by rw [cursor]; exact hv), ← cursor]
    exact ⟨[], rests_cancelVent left (by rw [cursor]; exact out), fun _ => rfl⟩
  · rw [if_neg (by rw [cursor]; exact hv)]
    exact ⟨_, ⟨cursor, rfl, left, out⟩, fun e => absurd e hv⟩

theorem fillPhase_of {c : Cursor} (hr : c.state = .running) (hp : c.phase = .fillWait ∨ c.phase = .filling) : c.fillPhase = true := by
  unfold Cursor.fillPhase
  rw [hr]
  cases hp with
  | inl e => rw [e]; rfl
  | inr e => rw [e]; rfl

/-- The cursor record that a PAUSE stores. -/
def State.pausedAt (s : State) (x : Seat) : State := (s.phaseLeft x).modCursor x fun c => { c with state := .paused }

theorem pauseAt_running {m : Master} {x : Seat} {s : State} (h : (s.cursor x).state = .running) :
    pauseAt m x s = (markCursor m x (s.pausedAt x), .ok) := if_pos h

/-- A raise, an origin and a record keep a resting cursor's vents, reports and place. -/
theorem rests_markCursor {m : Master} {x : Seat} {c : Cursor} {V : List VentOp} {b : Prop} {s : State} (f : Cursor → Cursor)
    (h : s.rests x c V b) : (markCursor m x (s.modCursor x f)).rests x { f c with origin := m.origin } V b := by
  have cursor : (markCursor m x (s.modCursor x f)).cursor x = { f c with origin := m.origin } := by
    rw [cursor_markCursor, State.cursor_modCursor, h.cursor]
  rw [markCursor_touches] at cursor ⊢
  exact ⟨cursor, h.ops, h.unreported, h.absent⟩

/-- What PAUSE does (spec/07 R154). -/
theorem pauses {m : Master} {x : Seat} {s : State} (h : s.onBus) (hw : s.mayWrite m x.region = true) :
    let cmd := Instr.pause m (byteOf (seatCode x))
    let r := s.recorded m 0x15 (some x) .ok
    ((s.cursor x).state ≠ .running → exec cmd s = .next r) ∧
    ((s.cursor x).state = .running →
      (∃ t, exec cmd s = .next t ∧ t.cursor x = { s.cursor x with state := .paused, origin := m.origin } ∧
        s.told t .changed x (.changed .cursor) (some m) ∧
        t.bystander = (r.modCursor x fun c => { c with origin := m.origin }).bystander ∧
        ((s.cursor x).phase = .vent → ∀ v ∈ t.pneu.vents, v.owner ≠ .requester (.massage x)) ∧
        ((s.cursor x).phase = .fillWait ∨ (s.cursor x).phase = .filling → s.queueLaws → t.absent (.massage x))) ∧
      ((s.cursor x).phase = .dwell → exec cmd s = .next (raiseSeat .changed x (.changed .cursor) (some m)
        (r.modCursor x fun c => { c with state := .paused, origin := m.origin })))) := by
  intro cmd r
  let s' : State := { s with bus := .idle }
  have effect := takePause_eq (u := s') hw
  refine ⟨fun hs => ?_, fun hs => ⟨?_, fun hp => ?_⟩⟩
  · have own : pauseAt m x s' = refuse .ok s' := if_neg hs
    exact taken_refused h (by rw [effect, own])
  · rw [pauseAt_running (s := s') hs] at effect
    obtain ⟨V, rest, none_⟩ := phaseLeft_rests (s := s') (x := x) (unreported_of_awake h.1.2.1)
    have marked := rests_markCursor (m := m) (fun c => { c with state := .paused }) rest
    have left : (s'.pausedAt x).bystander = (s'.phaseLeft x).bystander :=
      bystander_modCursor _ x _ ⟨rfl, rfl, rfl⟩
    have same : (markCursor m x (s'.pausedAt x)).bystander = (s'.modCursor x fun c => { c with origin := m.origin }).bystander := by
      refine (bystander_markCursor m x _).trans (bystander_modCursor_congr x ?_ fun c d e => ?_)
      · exact left.trans (stirs_phaseLeft (P := fun _ => True) s' x).bystander
      · exact congrArg (fun k : Cursor => { k with origin := m.origin }) e
    obtain ⟨t, ht, rests, followed⟩ := (rests_keep (x := x) (by rfl)).taken_write_law (fun _ r => rests_withResults r) h
      effect (.same _) ((results_of_bystander same).trans (by cases x <;> rfl)) marked
    refine ⟨t, ht, rests.cursor, ?_, followed.bystander.trans ?_, fun hv => ?_, fun hp hq => ?_⟩
    · refine followed_told followed rfl (markCursor_told m x _ (v := s) ?_)
      exact (access_of_bystander (left.trans (stirs_phaseLeft (P := fun _ => True) s' x).bystander)).trans rfl
    · have results := congrArg (State.withResults · (s.results.set m ⟨.ok, some 0x15, some x⟩)) same
      exact results.trans (by cases x <;> rfl)
    · cases none_ hv
      exact rests.no_vent
    · exact rests.absent ⟨fillPhase_of hs hp, hq⟩
  · have idle : s'.pausedAt x = s'.modCursor x fun c => { c with state := .paused } := by
      have phase : (s'.cursor x).fillPhase = false := by
        unfold Cursor.fillPhase
        rw [show (s'.cursor x).phase = _ from hp]
        exact Bool.and_false _
      have stays : withdrawCursor x s' = s' := if_neg (by rw [phase]; decide)
      have vents : cancelPhaseVent x s' = s' := if_neg (by rw [show (s'.cursor x).phase = _ from hp]; decide)
      unfold State.pausedAt State.phaseLeft
      rw [stays, vents]
    rw [pauseAt_running (s := s') hs, idle] at effect
    refine (taken_write_exact h effect ((markCursor_air m x _).reports.trans rfl) ((markCursor_air m x _).releases.trans rfl)).trans
      (congrArg Host.Outcome.next ?_)
    unfold markCursor raiseChanged
    rw [modCursor_modCursor, recordResult_raise]
    rfl

/-! ## RESUME (spec/07 R155) -/

theorem takeResume_eq {m : Master} {x : Seat} {u : State} (hw : u.mayWrite m x.region = true) :
    takeResume m (byteOf (seatCode x)) u = recordResult m 0x16 (some x) (resumeAt m x u) := by
  unfold takeResume
  rw [seatOfCode_seatCode, atCursor_some _ _ (seatOfCode_seatCode x)]
  exact congrArg (recordResult _ _ _) (if_pos hw)

/-- A PAUSED cursor that runs on, before its phase is resumed. -/
def State.resumed (s : State) (m : Master) (x : Seat) : State := markCursor m x (s.modCursor x fun c => { c with state := .running })

theorem resumeAt_paused {m : Master} {x : Seat} {s : State} (h : (s.cursor x).state = .paused) :
    resumeAt m x s = (resumePhase x (s.resumed m x), .ok) := if_pos h

theorem cursor_resumed (s : State) (m : Master) (x : Seat) :
    (s.resumed m x).cursor x = { s.cursor x with state := .running, origin := m.origin } := by
  unfold State.resumed
  rw [cursor_markCursor, State.cursor_modCursor]

theorem stirs_resumePhase {P : Seat → Prop} (s : State) (x : Seat) (hp : P x) : Stirs P s (resumePhase x s) := by
  unfold resumePhase
  split
  · exact .same s
  · split
    · exact stirs_beginVent (.same s) x hp _
    · exact stirs_beginFillWait (.same s) x hp _
    · exact stirs_beginFillWait (.same s) x hp _
    · exact .same s
    · exact .same s

theorem resumePhase_dwell {s : State} {x : Seat} (h : (s.cursor x).phase = .dwell) : resumePhase x s = s := by
  unfold resumePhase
  rw [h]
  split <;> rfl

theorem resumePhase_vent {s : State} {x : Seat} {f : StepFields} (h : (s.cursor x).phase = .vent) (hf : (s.cursor x).copy = some f) :
    resumePhase x s = beginVent x f.vent s := by
  unfold resumePhase
  rw [h, hf] <;> rfl

theorem resumePhase_fill {s : State} {x : Seat} {f : StepFields} (h : (s.cursor x).phase = .fillWait ∨ (s.cursor x).phase = .filling)
    (hf : (s.cursor x).copy = some f) : resumePhase x s = beginFillWait x f.fill s := by
  unfold resumePhase
  cases h with
  | inl e => rw [e, hf] <;> rfl
  | inr e => rw [e, hf] <;> rfl

theorem bystander_resumed (s : State) (m : Master) (x : Seat) :
    (s.resumed m x).bystander = (s.modCursor x fun c => { c with origin := m.origin }).bystander := by
  unfold State.resumed
  refine (bystander_markCursor m x _).trans (bystander_modCursor_congr x (bystander_modCursor s x _ ⟨rfl, rfl, rfl⟩) fun c d e => ?_)
  exact congrArg (fun k : Cursor => { k with origin := m.origin }) e

theorem resumed_air (s : State) (m : Master) (x : Seat) : AirAlike s (s.resumed m x) :=
  AirAlike.trans (t := s.modCursor x fun c => { c with state := .running }) ⟨rfl, rfl, rfl⟩ (markCursor_air m x _)

theorem resumed_budget (s : State) (m : Master) (x : Seat) : (s.resumed m x).budget = s.budget ∧ (s.resumed m x).params = s.params := by
  unfold State.resumed
  rw [markCursor_touches]
  exact ⟨rfl, rfl⟩

/-- What RESUME does (spec/07 R155). -/
theorem resumes {m : Master} {x : Seat} {s : State} (h : s.onBus) (hw : s.mayWrite m x.region = true) :
    let cmd := Instr.resume m (byteOf (seatCode x))
    let r := s.recorded m 0x16 (some x) .ok
    ((s.cursor x).state ≠ .paused → exec cmd s = .next r) ∧
    ((s.cursor x).state = .paused →
      (∃ t, exec cmd s = .next t ∧ s.told t .changed x (.changed .cursor) (some m) ∧
        t.bystander = (r.modCursor x fun c => { c with origin := m.origin }).bystander) ∧
      ∀ v, resumePhase x (State.resumed { s with bus := .idle } m x) = v → v.reports = s.reports → v.releases = s.releases →
        exec cmd s = .next (recordResult m 0x16 (some x) (v, .ok))) := by
  intro cmd r
  let s' : State := { s with bus := .idle }
  have effect := takeResume_eq (u := s') hw
  refine ⟨fun hs => ?_, fun hs => ⟨?_, fun v hv hr hl => ?_⟩⟩
  · have own : resumeAt m x s' = refuse .ok s' := if_neg hs
    exact taken_refused h (by rw [effect, own])
  · rw [resumeAt_paused (s := s') hs] at effect
    have same := bystander_resumed s' m x
    obtain ⟨t, ht, -, followed⟩ := true_keep.taken_write_law (fun _ _ h => h) h effect (stirs_resumePhase (s'.resumed m x) x trivial)
      ((results_of_bystander same).trans (by cases x <;> rfl)) trivial
    refine ⟨t, ht, followed_told followed rfl (markCursor_told m x _ (v := s) rfl), followed.bystander.trans ?_⟩
    exact congrArg (State.withResults · (s.results.set m ⟨.ok, some 0x16, some x⟩)) same
  · rw [resumeAt_paused (s := s') hs, hv] at effect
    exact taken_write_exact h effect hr hl

/-- Settles O20: the phase that PAUSE leaves and that RESUME begins again. -/
theorem pauseAndResume : Obligations.PauseAndResume := by
  refine ⟨?_, ?_⟩
  · intro m x s h hw cmd r
    obtain ⟨other, running⟩ := pauses h hw
    refine ⟨other, fun hs => ?_, fun hs hp => (running hs).2 hp, fun hs hp => ?_, fun hs hp hq => ?_⟩
    · obtain ⟨⟨t, ht, cursor, told, same, -, -⟩, -⟩ := running hs
      exact ⟨t, ht, cursor, told, same⟩
    · obtain ⟨⟨t, ht, -, -, -, vents, -⟩, -⟩ := running hs
      exact ⟨t, ht, vents hp⟩
    · obtain ⟨⟨t, ht, -, -, -, -, absent⟩, -⟩ := running hs
      exact ⟨t, ht, absent hp hq⟩
  · intro m x s h hw cmd r
    obtain ⟨other, paused⟩ := resumes h hw
    have cursor := cursor_resumed { s with bus := .idle } m x
    have air := AirAlike.trans (s := s) (t := { s with bus := .idle }) ⟨rfl, rfl, rfl⟩ (resumed_air _ m x)
    obtain ⟨budget, params⟩ := resumed_budget { s with bus := .idle } m x
    have marked : State.resumed { s with bus := .idle } m x =
      markCursor m x (State.modCursor { s with bus := .idle } x fun c => { c with state := .running }) := rfl
    generalize State.resumed { s with bus := .idle } m x = w at paused cursor air budget params marked
    replace cursor : w.cursor x = { s.cursor x with state := .running, origin := m.origin } := cursor
    have phase : (w.cursor x).phase = (s.cursor x).phase := (congrArg Cursor.phase cursor :)
    have copy : (w.cursor x).copy = (s.cursor x).copy := (congrArg Cursor.copy cursor :)
    refine ⟨other, fun hs => (paused hs).1, fun hs hp => ?_, fun f hs hp hf hv hq => ?_, fun f hs hp hf hv => ?_⟩
    · rw [(paused hs).2 w (resumePhase_dwell (phase.trans hp)) air.reports air.releases]
      refine congrArg Host.Outcome.next ?_
      rw [marked]
      unfold markCursor raiseChanged
      rw [modCursor_modCursor, recordResult_raise]
      rfl
    · obtain ⟨queue, holder, -⟩ := (airQuiet_iff s).mp hq
      have vents : resumePhase x w = startVent (.requester (.massage x)) f.vent
          (w.modCursor x fun c => { c with phase := .vent, phaseMs := 0 }) := by
        rw [resumePhase_vent (phase.trans hp) (copy.trans hf)]
        exact requestVent_quiet (.massage x) hv (by exact (congrArg Pneumatic.queue air.pneu).trans queue)
          (by exact (congrArg Pneumatic.holder air.pneu).trans holder)
      refine ⟨_, (paused hs).2 _ vents air.reports air.releases, ?_, ?_⟩
      · rw [cursor_recordResult, cursor_startVent, State.cursor_modCursor, cursor, ← hp]
      · have window : w.ventWindow = s.ventWindow := congrArg (Table.get paramDefault · 49) params
        rw [← window]
        exact startVent_mem _ (w.modCursor x fun c => { c with phase := .vent, phaseMs := 0 }) hv
    · intro waits entry
      let u := w.modCursor x fun c => { c with phase := .fillWait, phaseMs := 0 }
      have cells : (u.cursor x) = waits := by
        refine (State.cursor_modCursor w x _).trans ?_
        rw [cursor]
      have begins : resumePhase x w = requestFill (.massage x) f.fill (s.cursor x).effTarget u := by
        rw [resumePhase_fill ((or_congr (by rw [phase]) (by rw [phase])).mpr hp) (copy.trans hf)]
        show requestFill _ _ (w.cursor x).effTarget u = _
        rw [(congrArg Cursor.effTarget cursor :)]
      have asks : requestEntry (.massage x) f.fill (s.cursor x).effTarget = entry := by
        show (⟨_, _, min (s.cursor x).effTarget 400, false⟩ : Entry) = _
        rw [Nat.min_comm]
      refine ⟨fun g hg hr hn hq => ?_, fun hq hc => ?_⟩
      · have behind := requestFill_behind (s := u) (r := .massage x) (s.cursor x).effTarget hv
          (by exact (congrArg Pneumatic.holder air.pneu).trans hg) hr
          (by rw [show u.pneu = s.pneu from air.pneu]; exact hn) (by rw [show u.pneu = s.pneu from air.pneu]; exact hq)
        refine ⟨_, (paused hs).2 _ (begins.trans behind) air.reports air.releases, cells, ?_⟩
        rw [asks]
        exact congrArg (fun p : Pneumatic => { p with queue := p.queue ++ [entry] }) air.pneu
      · obtain ⟨queue, holder, -⟩ := (airQuiet_iff s).mp hq
        have overhead : u.overhead = s.overhead := congrArg (Table.get paramDefault · 45) params
        have budget : u.budget = s.budget := budget
        have starved := requestFill_starved (s := u) (r := .massage x) (s.cursor x).effTarget hv
          (by exact (congrArg Pneumatic.queue air.pneu).trans queue) (by exact (congrArg Pneumatic.holder air.pneu).trans holder)
          (by rw [overhead, budget]; exact hc)
        refine ⟨_, (paused hs).2 _ (begins.trans starved) (passCore_reports.1.trans air.reports)
          (passCore_reports.2.trans air.releases), ?_, ?_⟩
        · exact (passCore_cursor _ x).trans cells
        · refine (passCore_pneu (u.modPneu fun p => { p with queue := [requestEntry (.massage x) f.fill (s.cursor x).effTarget] })).trans ?_
          rw [asks]
          exact congrArg (fun p : Pneumatic => { p with queue := [entry] }) air.pneu

end Sys2Proof.Machine
end
section
/-! PROOFS. The vacancy delay's and the clear time's end (O36, O37). -/
namespace Sys2Proof.Machine

/-! ## What follows a command -/

/-- A law that a command's effect meets and the reports keep, and the updates by which the reports follow it. -/
theorem SettleKeep.taken_stirs {ok : Requester → Prop} {P : State → Prop} (K : SettleKeep ok P) {f : State → State} {s : State}
    (ha : s.awake) (h : P (f s)) : ∃ t, taken f s = .next t ∧ P t ∧ Stirs (fun _ => True) (f s) t :=
  ⟨_, taken_awake f s ha, K.moment _ _ (K.settle reportBound h), (stirs_settle reportBound (f s)).releases _⟩

/-- A fan that asks for nothing and has nothing stays so. -/
theorem Stirs.fan_off {P : Seat → Prop} {s t : State} (h : Stirs P s t) (f : FanId) (hd : (s.fan f).demand = 0)
    (hg : (s.fan f).granted = 0) : (t.fan f).demand = 0 ∧ (t.fan f).granted = 0 := by
  induction h with
  | pass _ ih =>
    rename_i t _
    have none_ : (allocate t.passInput).levelOf f = 0 := Nat.le_zero.mp (Nat.le_trans (levelOf_le t f) (Nat.le_of_eq (by rw [ih.1])))
    rw [fan_passCore, none_]
    exact ⟨ih.1, rfl⟩
  | raised _ n reached m _ ih =>
    rw [deliver_touches]
    exact ih
  | read _ i ih =>
    rw [readRecord_touches]
    exact ih
  | same => exact ⟨hd, hg⟩
  | air _ f _ ih => exact ih
  | reports _ l ih => exact ih
  | releases _ r ih => exact ih
  | cursor _ x _ f _ ih => exact ih
  | regulator _ x f _ ih => exact ih
  | zeroSetpoint _ x c ih => exact ih
  | underfill _ x ih => exact ih

/-- An event that ends in a pass of an air system at rest is that pass. -/
theorem taken_quiet_pass {f : State → State} {s u : State} (h : s.awake) (e : f s = runPass u) (hq : u.airQuiet = true)
    (hr : u.releases = .select) : taken f s = .next (passCore u) := by
  obtain ⟨-, holder, reports⟩ := (airQuiet_iff u).mp hq
  have passed : f s = passCore u := e.trans (runPass_refused (permitted_of_quiet hq) holder)
  rw [← passed]
  exact taken_quiet f s h (by rw [passed]; exact passCore_reports.1.trans reports) (by rw [passed]; exact passCore_reports.2.trans hr)

theorem airAlike_onLoads {s u : State} (h : s.onLoads u) : AirAlike s u := h.air

/-! ## VACANCY_DELAY_EXPIRY (spec/01 R12) -/

section

variable (s : State) (x : Seat)

/-- A seat in STANDBY with its loads off, before its cursor and its notice. -/
def State.stoodBy : State := occupyLoads x (setOccupancy x .standby (.clear s.clearTime) s)

/-- The same with its cursor and its notice, before the pass. -/
def State.standsBy : State := raiseOccupancy x .standby (standbyCursor x (s.stoodBy x))

theorem enterStandby_eq : enterStandby x s = runPass (s.standsBy x) := rfl

theorem stoodBy_onLoads : (setOccupancy x .standby (.clear s.clearTime) s).onLoads (s.stoodBy x) := onLoads_occupyLoads x _

theorem stoodBy_air : AirAlike s (s.stoodBy x) :=
  AirAlike.trans (t := setOccupancy x .standby (.clear s.clearTime) s) ⟨rfl, rfl, rfl⟩ (stoodBy_onLoads s x).air

theorem stoodBy_zone (z : ZoneId) : (s.stoodBy x).zone z = if z.seat = x then shutZone .standby (s.zone z) else s.zone z := by
  have vacant := active_setOccupancy x .standby (.clear s.clearTime) s
  unfold State.stoodBy
  rw [occupyLoads_zone]
  by_cases h : z.seat = x
  · rw [if_pos h, if_pos h, evaluateChannel_vacant (by rw [h]; exact vacant)]
    rfl
  · rw [if_neg h, if_neg h]
    rfl

theorem stoodBy_fan (f : FanId) : (s.stoodBy x).fan f = if f.seat = x then rederive false (s.fanLevel f).value (s.fan f) else s.fan f := by
  have vacant := active_setOccupancy x .standby (.clear s.clearTime) s
  unfold State.stoodBy
  rw [occupyLoads_fan]
  by_cases h : f.seat = x
  · rw [if_pos h, if_pos h]
    show rederive ((setOccupancy x .standby (.clear s.clearTime) s).active f.seat)
      ((setOccupancy x .standby (.clear s.clearTime) s).fanLevel f).value (s.fan f) = _
    rw [h, vacant, fanLevel_setOccupancy]
    rfl
  · rw [if_neg h, if_neg h]
    rfl

theorem stirs_standbyCursor {P : Seat → Prop} (u : State) (hp : P x) : Stirs P u (standbyCursor x u) := by
  unfold standbyCursor
  split
  · exact stirs_enterEnding (.same u) x hp _
  · exact stirs_enterEnding (.same u) x hp _
  all_goals exact .same u

theorem standsBy_touches : s.standsBy x =
    { standbyCursor x (s.stoodBy x) with notices := (s.standsBy x).notices } := raiseOccupancy_touches _ _ _

/-- The part keeps its bystander from the loads' change on. -/
theorem standsBy_bystander : (s.standsBy x).bystander = (s.stoodBy x).bystander :=
  (bystander_raiseSeat _ _ _ _ _).trans (stirs_standbyCursor (P := fun _ => True) x _ trivial).bystander

theorem standbyCursor_quiet (u : State) (hq : u.airQuiet = true) :
    (standbyCursor x u).airQuiet = true ∧ (standbyCursor x u).releases = u.releases := by
  obtain ⟨queue, holder, reports⟩ := (airQuiet_iff u).mp hq
  unfold standbyCursor
  split
  · rw [enterEnding_quiet _ queue holder]
    exact ⟨(airQuiet_iff _).mpr ⟨queue, holder, reports⟩, rfl⟩
  · rw [enterEnding_quiet _ queue holder]
    exact ⟨(airQuiet_iff _).mpr ⟨queue, holder, reports⟩, rfl⟩
  all_goals exact ⟨hq, rfl⟩

/-- At the entry into STANDBY the cursor rests: in ENDING where a program ran, and otherwise as it was, out of a fill phase. -/
theorem standbyCursor_rests (u : State) (ho : u.unreported (.massage x)) :
    ∃ V, (standbyCursor x u).rests x
      (if (u.cursor x).state = .running ∨ (u.cursor x).state = .paused then (u.cursor x).ended .standby else u.cursor x) V False := by
  unfold standbyCursor
  cases hs : (u.cursor x).state with
  | running => exact ⟨_, rests_enterEnding .standby ho fun k => k.elim⟩
  | paused => exact ⟨_, rests_enterEnding .standby ho fun k => k.elim⟩
  | idle => exact ⟨_, rfl, rfl, ho, fun k => k.elim⟩
  | ending => exact ⟨_, rfl, rfl, ho, fun k => k.elim⟩
  | fault => exact ⟨_, rfl, rfl, ho, fun k => k.elim⟩

end

/-- Settles O36: the loads off, the cursor in ENDING, and the pass. -/
theorem vacancyDelayExpiryEntersStandby : Obligations.VacancyDelayExpiryEntersStandby := by
  intro x s h
  refine ⟨fun hn => taken_still h ?_, fun ho ht => ?_⟩
  · unfold expireVacancy
    split
    · rename_i e k
      exact absurd k (hn.resolve_left fun i => i e)
    · rfl
  · have effect : expireVacancy x s = runPass (s.standsBy x) := by
      unfold expireVacancy
      rw [ho, ht] <;> rfl
    have air := stoodBy_air s x
    obtain ⟨V, rest⟩ := standbyCursor_rests x (s.stoodBy x) (unreported_of_awake (air.reports.trans h.2.1))
    have cursor : (s.stoodBy x).cursor x = s.cursor x := by
      rw [stoodBy_onLoads]
      rfl
    rw [cursor] at rest
    have inert : (if (s.cursor x).state = .running ∨ (s.cursor x).state = .paused then (s.cursor x).ended .standby
        else s.cursor x).fillPhase = false := by
      split
      · rfl
      · rename_i k
        unfold Cursor.fillPhase
        have still : ((s.cursor x).state == .running) = false := by simpa using fun e => k (.inl e)
        rw [still, Bool.false_and]
    generalize hC : (if (s.cursor x).state = .running ∨ (s.cursor x).state = .paused then (s.cursor x).ended .standby
      else s.cursor x) = C at rest inert
    have passed : (expireVacancy x s).rests x C V False := by
      rw [effect]
      refine rests_arb.runPass ?_
      rw [standsBy_touches]
      exact ⟨rest.cursor, rest.ops, rest.unreported, rest.absent⟩
    obtain ⟨t, ht', rests, stirs⟩ := (rests_keep inert).taken_stirs h passed
    have after : Stirs (fun _ => True) (s.standsBy x) t := by
      rw [effect] at stirs
      exact (stirs_runPass (.same _)).trans stirs
    have before := stirs_standbyCursor (P := fun _ => True) x (s.stoodBy x) trivial
    have same : t.bystander = (s.stoodBy x).bystander := after.bystander.trans (standsBy_bystander s x)
    have record : (t.seat x).unreported =
        ({ s.seat x with occupancy := .standby, timer := .clear s.clearTime } : SeatRecord).unreported := by
      refine (unreported_of_bystander same x).trans (congrArg SeatRecord.unreported ?_)
      unfold State.seat
      rw [(stoodBy_onLoads s x).rest.1]
      exact State.seat_modSeat s x _
    refine ⟨t, ht', (congrArg SeatRecord.occupancy record :), (congrArg SeatRecord.timer record :), fun z hz => ?_, fun f hf => ?_,
      fun hs => ?_, fun _ hs => ?_, fun z => ?_, fun f => ?_, ?_, fun z hz => ?_, fun f hf => ?_, fun hq => ?_, ?_⟩
    · have off : (s.stoodBy x).zone z = shutZone .standby (s.zone z) := (stoodBy_zone s x z).trans (if_pos hz)
      have stands : (s.standsBy x).zone z = shutZone .standby (s.zone z) := by
        rw [standsBy_touches]
        exact (before.zone_unasked z (by rw [off]; rfl) (by rw [off]; rfl)).trans off
      rw [after.zone_unasked z (by rw [stands]; rfl) (by rw [stands]; rfl), stands]
      exact ⟨rfl, rfl, rfl, rfl, rfl, rfl, rfl⟩
    · have off : (s.stoodBy x).fan f = rederive false (s.fanLevel f).value (s.fan f) := (stoodBy_fan s x f).trans (if_pos hf)
      obtain ⟨demand, granted⟩ := rederive_spec false (s.fanLevel f).value (s.fan f)
      have none_ : fanDemand false (s.fanLevel f).value (s.fan f).state = 0 := rfl
      have stands : ((s.standsBy x).fan f).demand = 0 ∧ ((s.standsBy x).fan f).granted = 0 := by
        rw [standsBy_touches]
        exact before.fan_off f (by rw [off, demand, none_]) (by rw [off, granted, none_, Nat.min_zero])
      obtain ⟨hd, hg⟩ := after.fan_off f stands.1 stands.2
      refine ⟨hd, hg, ((congrArg FanChannel.state (fan_of_bystander same f) :)).trans ?_⟩
      rw [off]
      exact (rederive_keeps _ _ _).1
    · rw [rests.cursor, ← hC, if_pos hs]
      exact ⟨rfl, rfl⟩
    · rw [rests.cursor, ← hC, if_neg fun k => ?_]
      rcases hs with e | e <;> rcases k with i | i <;> rw [e] at i <;> cases i
    · rw [level_of_bystander same, stoodBy_onLoads]
      exact level_setOccupancy x .standby (.clear s.clearTime) s z
    · rw [fanLevel_of_bystander same, stoodBy_onLoads]
      exact fanLevel_setOccupancy x .standby (.clear s.clearTime) s f
    · rw [params_of_bystander same, stoodBy_onLoads]
      rfl
    · rw [zone_of_bystander same, stoodBy_zone, if_neg hz]
    · rw [fan_of_bystander same, stoodBy_fan, if_neg hf]
    · obtain ⟨quiet, releases⟩ := standbyCursor_quiet x (s.stoodBy x) (air.quiet hq)
      have exactly := taken_quiet_pass h effect (by rw [standsBy_touches]; exact quiet)
        (by rw [standsBy_touches]; exact releases.trans (air.releases.trans h.2.2))
      rw [Host.Outcome.next.inj (ht'.symm.trans exactly), result_passCore]
    · refine followed_told after.followed rfl fun m hr he => ?_
      refine raiseSeat_reaches _ _ _ _ _ m ?_ he
      unfold State.mayRead at hr ⊢
      rw [access_of_bystander before.bystander, stoodBy_onLoads]
      exact hr

end Sys2Proof.Machine
end
section
/-! PROOFS. The clear time's end (O37): a regulator in an EMPTY seat rests. -/
namespace Sys2Proof.Machine

/-! ## The resting regulator -/

theorem setpoint_setSetpoint_other (s : State) (y x : Seat) (d c : HoldCell) (v : Setting) (h : ¬ (x = y ∧ c = d)) :
    (s.setSetpoint y d v).setpoint x c = s.setpoint x c := by
  by_cases e : x = y
  · subst e
    have k : c ≠ d := fun i => h ⟨rfl, i⟩
    simp [State.setSetpoint, State.setpoint, k]
  · simp [State.setSetpoint, State.setpoint, e]

/-- A setpoint that a fault or an entry to EMPTY has made 0 stays so. -/
theorem Stirs.setpoint_zero {P : Seat → Prop} {s t : State} (h : Stirs P s t) (x : Seat) (c : HoldCell)
    (hs : s.setpoint x c = ⟨0, .device⟩) : t.setpoint x c = ⟨0, .device⟩ := by
  induction h with
  | pass _ ih =>
    rw [passCore_touches]
    exact ih
  | raised _ n reached m _ ih =>
    rw [deliver_touches]
    exact ih
  | read _ i ih =>
    rw [readRecord_touches]
    exact ih
  | same => exact hs
  | air _ f _ ih => exact ih
  | reports _ l ih => exact ih
  | releases _ r ih => exact ih
  | cursor _ x _ f _ ih => exact ih
  | regulator _ x f _ ih => exact ih
  | zeroSetpoint _ y d ih =>
    rename_i t _
    by_cases e : x = y ∧ c = d
    · obtain ⟨rfl, rfl⟩ := e
      exact State.setpoint_setSetpoint t x c _
    · rw [setpoint_setSetpoint_other t y x d c _ e, ih]
  | underfill _ y ih =>
    rename_i t _
    have kept : (countUnderfill y t).setpoint x c = t.setpoint x c := by cases x <;> cases y <;> rfl
    rw [kept, ih]

/-- The regulator's record is this one, and no vent of it is reported complete. -/
structure State.regRests (x : Seat) (r : Regulator) (s : State) : Prop where
  regulator : s.regulator x = r
  unreported : s.unreported (.support x)

section

variable {x : Seat} {r : Regulator}

theorem regRests_arb : ArbKeep (State.regRests x r) where
  pass s h := by
    rw [passCore_touches]
    exact ⟨h.regulator, h.unreported⟩
  releases q s _ h := ⟨h.regulator, h.unreported⟩
  tune f s _ _ _ h := ⟨h.regulator, h.unreported⟩
  grant e s hn hm h := ⟨h.regulator, (unreported_keep _).grant e s hn hm h.unreported⟩
  ended g how s hh ha h := by
    refine ⟨?_, (unreported_keep _).ended g how s hh ha h.unreported⟩
    rw [← h.regulator]
    unfold endFill
    dsimp only
    split <;> rfl
  requeued g s hg h := ⟨h.regulator, (unreported_keep _).requeued g s hg h.unreported⟩

theorem regRests_ask (q : Requester) : MayAsk (State.regRests x r) q where
  replace _ _ _ _ _ h := ⟨h.regulator, h.unreported⟩
  rehold _ _ _ _ h := ⟨h.regulator, h.unreported⟩
  append _ _ _ _ h := ⟨h.regulator, h.unreported⟩
  remove _ h := ⟨h.regulator, h.unreported⟩
  unvent _ h := ⟨h.regulator, h.unreported⟩

/-- A report other than VENT COMPLETE changes nothing at a regulator that serves no cell. -/
theorem takeReport_support {s : State} {w : Report} (hw : w.requester = .support x) (hv : w ≠ .ventComplete (.support x))
    (hs : (s.regulator x).service = .free) : takeReport w s = s := by
  cases w with
  | granted q =>
    cases hw
    show supportGranted x s = s
    unfold supportGranted
    rw [hs] <;> rfl
  | ended q how =>
    cases hw
    show supportOutcome x how s = s
    unfold supportOutcome
    rw [hs] <;> rfl
  | ventComplete q =>
    cases hw
    exact absurd rfl hv

/-- Whatever the other requesters do, a regulator that serves no cell rests. -/
theorem regRests_keep (hr : r.service = .free) : SettleKeep (· ≠ .support x) (State.regRests x r) where
  toArbKeep := regRests_arb
  moment _ _ h := ⟨h.regulator, h.unreported⟩
  ask q _ := regRests_ask q
  vent q k s _ _ h := ⟨h.regulator, h.unreported⟩
  cursor y g s _ h := ⟨h.regulator, h.unreported⟩
  regulator y g s hy _ h := ⟨(State.regulator_modRegulator_other s y x g (fun e => hy (by rw [e]))).trans h.regulator, h.unreported⟩
  fault y k s hy h := ⟨(State.regulator_modRegulator_other _ y x _ (fun e => hy (by rw [e]))).trans h.regulator, h.unreported⟩
  airFault q d s _ h := by
    rw [raiseSeat_touches]
    exact ⟨h.regulator, h.unreported⟩
  programEnd y d s _ h := by
    rw [raiseSeat_touches]
    exact ⟨h.regulator, h.unreported⟩
  read i s h := by
    rw [readRecord_touches]
    exact ⟨h.regulator, h.unreported⟩
  take w rest s e h := ⟨h.regulator, fun m => h.unreported (by rw [e]; exact List.mem_cons_of_mem _ m)⟩
  underfill y m rest s e _ h := ⟨h.regulator, fun i => h.unreported (by rw [e]; exact List.mem_cons_of_mem _ i)⟩
  inert w rest s e hw h := by
    have own : w.requester = .support x := Classical.not_not.mp hw
    rw [takeReport_support own (fun i => h.unreported (by rw [e, i]; exact List.mem_cons_self ..)) (by
      show (s.regulator x).service = .free
      rw [h.regulator, hr])]
    exact ⟨h.regulator, fun m => h.unreported (by rw [e]; exact List.mem_cons_of_mem _ m)⟩

end

/-! ## The regulator of a seat that enters EMPTY (spec/08 R166) -/

/-- The regulator's record at its seat's entry to EMPTY. -/
def Regulator.emptied (r : Regulator) : Regulator := { r with service := .free, needs := Four.all .vent, cuts := Four.all none }

/-- The part whose regulator serves no cell any more. -/
def State.unserved (s : State) (x : Seat) : State :=
  if (s.regulator x).service = .free then s else (withdraw (.support x) s).setService x .free

theorem emptyRegulator_eq (x : Seat) (s : State) : emptyRegulator x s =
    requestVent (.support x) 0xF000 ((s.unserved x).modRegulator x fun r => { r with needs := Four.all .vent, cuts := Four.all none }) :=
  rfl

theorem unserved_rests {s : State} {x : Seat} (h : s.unreported (.support x)) :
    (s.unserved x).regRests x { s.regulator x with service := .free } := by
  unfold State.unserved
  split
  · rename_i hs
    refine ⟨?_, h⟩
    rw [← hs]
  · obtain ⟨regulator, unreported⟩ := regRests_arb.withdraw (regRests_ask (.support x)).fills (s := s) ⟨rfl, h⟩
    refine ⟨?_, unreported⟩
    unfold State.setService
    rw [State.regulator_modRegulator, regulator]

theorem emptyRegulator_rests {s : State} {x : Seat} (h : s.unreported (.support x)) :
    (emptyRegulator x s).regRests x (s.regulator x).emptied := by
  obtain ⟨regulator, unreported⟩ := unserved_rests h
  rw [emptyRegulator_eq]
  refine regRests_arb.requestVent _ (by decide) (fun u hu => ⟨hu.regulator, hu.unreported⟩) ⟨?_, unreported⟩
  rw [State.regulator_modRegulator, regulator]
  rfl

theorem emptyRegulator_quiet {s : State} {x : Seat} (hq : s.pneu.queue = []) (hh : s.pneu.holder = none) :
    emptyRegulator x s = startVent (.requester (.support x)) 0xF000 (s.modRegulator x Regulator.emptied) := by
  have unserved : (s.unserved x).modRegulator x (fun r => { r with needs := Four.all .vent, cuts := Four.all none }) =
      s.modRegulator x Regulator.emptied := by
    unfold State.unserved
    split
    · rename_i hs
      unfold State.modRegulator Regulator.emptied
      rw [← hs]
    · rw [withdraw_quiet _ hq hh]
      unfold State.setService State.modRegulator
      cases x <;> rfl
  rw [emptyRegulator_eq, unserved]
  exact requestVent_quiet _ (by decide) hq hh

/-! ## CLEAR_TIME_EXPIRY (spec/01 R14) -/

section

variable (s : State) (x : Seat)

/-- A seat that has entered EMPTY, before its loads act. -/
def State.recordEmptied : State :=
  restartSeatStepDown x ((s.modSeat x SeatRecord.emptied).modCursor x fun c => { c with origin := .device })

/-- The same with its loads off, before its regulator and its notice. -/
def State.loadsEmptied : State := emptySeatFans x (evaluateSeatZones x (s.recordEmptied x))

theorem enterEmpty_eq : enterEmpty x s = runPass (raiseOccupancy x .empty (emptyRegulator x (s.loadsEmptied x))) := rfl

theorem loadsEmptied_onLoads : (s.recordEmptied x).onLoads (s.loadsEmptied x) :=
  (onLoads_keep _).emptySeatFans x ((onLoads_keep _).evaluateSeatZones x (onLoads_refl _))

theorem loadsEmptied_air : AirAlike s (s.loadsEmptied x) :=
  AirAlike.trans (t := s.recordEmptied x) ⟨rfl, rfl, rfl⟩ (loadsEmptied_onLoads s x).air

theorem loadsEmptied_seat : (s.loadsEmptied x).seat x = (s.seat x).emptied := by
  unfold State.seat
  rw [(loadsEmptied_onLoads s x).rest.1]
  exact State.seat_modSeat s x _

theorem loadsEmptied_seat_other (y : Seat) (h : y ≠ x) : (s.loadsEmptied x).seat y = s.seat y := by
  unfold State.seat
  rw [(loadsEmptied_onLoads s x).rest.1]
  exact State.seat_modSeat_other s x y _ h

theorem loadsEmptied_cursor : (s.loadsEmptied x).cursor x = { s.cursor x with origin := .device } := by
  have cursors : (s.loadsEmptied x).cursors = (s.recordEmptied x).cursors := by rw [loadsEmptied_onLoads]
  unfold State.cursor
  rw [cursors]
  exact State.cursor_modCursor (s.modSeat x SeatRecord.emptied) x fun c => { c with origin := .device }

theorem loadsEmptied_regulator : (s.loadsEmptied x).regulator x = s.regulator x := by
  rw [loadsEmptied_onLoads]
  rfl

theorem active_recordEmptied : (s.recordEmptied x).active x = false := by
  have seat : (s.recordEmptied x).seat x = (s.seat x).emptied := State.seat_modSeat s x _
  unfold State.active
  rw [seat]
  rfl

theorem zone_recordEmptied (z : ZoneId) : (s.recordEmptied x).zone z = if z.seat = x then restartStepDown (s.zone z) else s.zone z := by
  obtain ⟨y, p⟩ := z
  cases x <;> cases y <;> cases p <;> rfl

theorem loadsEmptied_zone (z : ZoneId) : (s.loadsEmptied x).zone z =
    if z.seat = x then shutZone .standby (restartStepDown (s.zone z)) else s.zone z := by
  unfold State.loadsEmptied
  rw [emptySeatFans_eq, putFans_touches]
  show (evaluateSeatZones x (s.recordEmptied x)).zone z = _
  rw [evaluateSeatZones_eq, zone_putZones _ _ (nodup_of_sorted (seatZones_sorted x)), zone_recordEmptied]
  by_cases h : z.seat = x
  · rw [if_pos h, if_pos h, if_pos ((mem_seatZones_iff z x).mpr h), evaluateChannel_vacant (by rw [h]; exact active_recordEmptied s x)]
  · rw [if_neg h, if_neg h, if_neg fun m => h ((mem_seatZones_iff z x).mp m)]

theorem loadsEmptied_fan (f : FanId) (h : f.seat = x) : (s.loadsEmptied x).fan f = rederive false 0 (handLevel false 0 (s.fan f)) := by
  have loads := onLoads_evaluateSeatZones x (s.recordEmptied x)
  have channel : (evaluateSeatZones x (s.recordEmptied x)).fan f = s.fan f := by
    unfold State.fan
    rw [fans_evaluateSeatZones]
    rfl
  have handed : (evaluateSeatZones x (s.recordEmptied x)).handed f = (s.recordEmptied x).handed f := by
    rw [loads]
    rfl
  have level : (s.recordEmptied x).fanLevel f = ⟨0, .device⟩ := by
    have seat : (s.recordEmptied x).seat f.seat = (s.seat x).emptied := by
      rw [h]
      exact State.seat_modSeat s x _
    unfold State.fanLevel
    rw [seat]
    cases f.part <;> rfl
  unfold State.loadsEmptied
  rw [emptySeatFans_eq, fan_putFans _ _ (nodup_seatFans x), if_pos ((mem_seatFans_iff f x).mpr h), channel, handed]
  unfold State.handed
  rw [level, h, active_recordEmptied]

theorem handLevel_zero (c : FanChannel) : (handLevel false 0 c).state = if c.state = .fault then .fault else .off := by
  unfold handLevel
  cases hc : c.state <;> simp [hc]

end

/-- In an air system at rest the entry to EMPTY starts the vent of the four cells, and its pass moves no air. -/
theorem emptied_pass {l : State} {x : Seat} (hq : l.pneu.queue = []) (hh : l.pneu.holder = none) :
    (⟨.requester (.support x), 0xF000, l.ventWindow⟩ : VentOp) ∈ (passCore (raiseOccupancy x .empty (emptyRegulator x l))).pneu.vents ∧
    (passCore (raiseOccupancy x .empty (emptyRegulator x l))).cursor x = l.cursor x ∧
    (passCore (raiseOccupancy x .empty (emptyRegulator x l))).seat x = l.seat x := by
  rw [emptyRegulator_quiet hq hh, passCore_pneu, passCore_cursor, passCore_touches, raiseOccupancy_touches]
  exact ⟨startVent_mem _ (l.modRegulator x Regulator.emptied) (by decide), rfl, rfl⟩

/-- Settles O37: the settings at 0, the regulator's vent, and the pass. -/
theorem clearTimeExpiryEntersEmpty : Obligations.ClearTimeExpiryEntersEmpty := by
  intro x s h
  refine ⟨fun hn => taken_still h ?_, fun ho ht => ?_⟩
  · unfold expireClear
    split
    · rename_i e k
      exact absurd k (hn.resolve_left fun i => i e)
    · rfl
  · let l := s.loadsEmptied x
    let n := raiseOccupancy x .empty (emptyRegulator x l)
    have effect : expireClear x s = runPass n := by
      unfold expireClear
      rw [ho, ht] <;> rfl
    have air : AirAlike s l := loadsEmptied_air s x
    have regulator : l.regulator x = s.regulator x := loadsEmptied_regulator s x
    have rest := emptyRegulator_rests (s := l) (x := x) (unreported_of_awake (air.reports.trans h.2.1))
    rw [regulator] at rest
    have told : n = { emptyRegulator x l with notices := n.notices } := raiseOccupancy_touches _ _ _
    have passed : (expireClear x s).regRests x (s.regulator x).emptied := by
      rw [effect]
      refine regRests_arb.runPass ?_
      rw [told]
      exact ⟨rest.regulator, rest.unreported⟩
    obtain ⟨t, ht', rests, stirs⟩ := (regRests_keep (by rfl)).taken_stirs h passed
    have after : Stirs (fun _ => True) n t := by
      rw [effect] at stirs
      exact (stirs_runPass (.same _)).trans stirs
    have before : Stirs (fun _ => True) l (emptyRegulator x l) := stirs_emptyRegulator (.same l) x
    have same : t.bystander = l.bystander := after.bystander.trans ((bystander_raiseSeat _ _ _ _ _).trans before.bystander)
    have seat : (t.seat x).unreported = (s.seat x).emptied.unreported :=
      (unreported_of_bystander same x).trans (congrArg SeatRecord.unreported (loadsEmptied_seat s x))
    refine ⟨t, ht', (congrArg SeatRecord.occupancy seat :), (congrArg SeatRecord.timer seat :), fun z hz => ?_, fun f hf => ?_,
      fun c => ?_, (congrArg Regulator.service rests.regulator :), ?_, ?_, fun z hz => ?_, fun hq => ?_, ?_⟩
    · have off : l.zone z = shutZone .standby (restartStepDown (s.zone z)) := (loadsEmptied_zone s x z).trans (if_pos hz)
      have level : t.level z = l.level z := level_of_bystander same z
      have zone := zone_of_bystander same z
      rw [off] at zone
      refine ⟨level.trans ?_, (congrArg ZoneChannel.minutes zone :), (congrArg ZoneChannel.minuteMs zone :),
        (congrArg ZoneChannel.state zone :), (congrArg ZoneChannel.latch zone :)⟩
      show (l.seat z.seat).levels.get z.part = _
      rw [hz, show l.seat x = _ from loadsEmptied_seat s x]
      cases z.part <;> rfl
    · have level : t.fanLevel f = l.fanLevel f := fanLevel_of_bystander same f
      have fan : (t.fan f).state = (l.fan f).state := (congrArg FanChannel.state (fan_of_bystander same f) :)
      refine ⟨level.trans ?_, ?_⟩
      · show (l.seat f.seat).fanLevels.get f.part = _
        rw [hf, show l.seat x = _ from loadsEmptied_seat s x]
        cases f.part <;> rfl
      · rw [fan, show l.fan f = _ from loadsEmptied_fan s x f hf, (rederive_keeps _ _ _).1, handLevel_zero]
    · have zero : l.setpoint x c = ⟨0, .device⟩ := by
        show (l.seat x).setpoints.get c = _
        rw [show l.seat x = _ from loadsEmptied_seat s x]
        cases c <;> rfl
      have stands : n.setpoint x c = ⟨0, .device⟩ := by
        rw [told]
        exact before.setpoint_zero x c zero
      refine ⟨after.setpoint_zero x c stands, ?_, ?_⟩
      · show (t.regulator x).needs.get c = _
        rw [rests.regulator]
        cases c <;> rfl
      · show (t.regulator x).marks.get c = _
        rw [rests.regulator]
        rfl
    · have cursor := cursor_of_bystander same x
      rw [show l.cursor x = _ from loadsEmptied_cursor s x] at cursor
      exact (congrArg Cursor.origin cursor :)
    · rw [params_of_bystander same]
      exact (loadsEmptied_onLoads s x).rest.2.1
    · refine ⟨?_, ?_⟩
      · rw [level_of_bystander same z]
        show (l.seat z.seat).levels.get z.part = _
        rw [show l.seat z.seat = _ from loadsEmptied_seat_other s x z.seat hz]
        rfl
      · rw [zone_of_bystander same z, show l.zone z = _ from loadsEmptied_zone s x z, if_neg hz]
    · obtain ⟨queue, holder, reports⟩ := (airQuiet_iff l).mp (air.quiet hq)
      have still := emptyRegulator_quiet (x := x) queue holder
      have alike : (emptyRegulator x l).airQuiet = true ∧ (emptyRegulator x l).releases = .select := by
        rw [still]
        exact ⟨(airQuiet_iff _).mpr ⟨queue, holder, reports⟩, air.releases.trans h.2.2⟩
      have exactly := taken_quiet_pass h effect (by rw [told]; exact alike.1) (by rw [told]; exact alike.2)
      rw [Host.Outcome.next.inj (ht'.symm.trans exactly)]
      have window : l.ventWindow = s.ventWindow := congrArg (Table.get paramDefault · 49) (loadsEmptied_onLoads s x).rest.2.1
      obtain ⟨vent, cursor, seat⟩ := emptied_pass (x := x) queue holder
      rw [window] at vent
      refine ⟨vent, ?_, ?_, result_passCore n⟩
      · rw [cursor, show l.cursor x = _ from loadsEmptied_cursor s x]
      · rw [seat, show l.seat x = _ from loadsEmptied_seat s x]
        rfl
    · refine followed_told after.followed rfl fun m hr he => ?_
      refine raiseSeat_reaches _ _ _ _ _ m ?_ he
      unfold State.mayRead at hr ⊢
      rw [access_of_bystander before.bystander, show l.access = _ from (loadsEmptied_onLoads s x).rest.2.2.2]
      exact hr

end Sys2Proof.Machine
end
section
/-! PROOFS. RESET SEATS (O17). -/
namespace Sys2Proof.Machine

/-! ## Pending pairs before and after a raise -/

theorem mem_deliver_of_mem {s : State} {n p : Notice} {b : Bool} {m k : Master}
    (h : p ∈ ((s.deliver n b m).notices.get k).pending) : p = n ∨ p ∈ (s.notices.get k).pending := by
  unfold State.deliver at h
  split at h
  · by_cases e : k = m
    · subst e
      refine mem_of_insertNotice n p _ ?_
      simpa [State.modNotices, NoticeBox.receive, NoticeBox.judged] using h
    · exact .inr (by simpa [State.modNotices, e] using h)
  · exact .inr h

theorem mem_deliver_other {s : State} {n p : Notice} {b : Bool} {m k : Master} (hr : p.rank ≠ n.rank) :
    p ∈ ((s.deliver n b m).notices.get k).pending ↔ p ∈ (s.notices.get k).pending := by
  refine ⟨fun h => (mem_deliver_of_mem h).resolve_left fun e => hr (by rw [e]), fun h => ?_⟩
  unfold State.deliver
  split
  · by_cases e : k = m
    · subst e
      simpa [State.modNotices, NoticeBox.receive, NoticeBox.judged] using mem_insertNotice_other n p _ h hr
    · simpa [State.modNotices, e] using h
  · exact h

theorem mask_deliver (s : State) (n : Notice) (b : Bool) (m k : Master) :
    ((s.deliver n b m).notices.get k).mask = (s.notices.get k).mask := by
  unfold State.deliver
  split
  · by_cases e : k = m
    · subst e
      simp [State.modNotices, NoticeBox.receive, NoticeBox.judged]
    · simp [State.modNotices, e]
  · rfl

section

variable {s : State} {k : NoticeKind} {x : Seat} {d : Detail} {e : Option Master} {p : Notice} {m : Master}

theorem mem_raiseSeat_of_mem (h : p ∈ ((raiseSeat k x d e s).notices.get m).pending) :
    p = ⟨k, some x, d⟩ ∨ p ∈ (s.notices.get m).pending := by
  refine (mem_deliver_of_mem h).elim .inl fun h => (mem_deliver_of_mem h).elim .inl fun h => mem_deliver_of_mem h

theorem mem_raiseSeat_other (hr : p.rank ≠ (⟨k, some x, d⟩ : Notice).rank) :
    p ∈ ((raiseSeat k x d e s).notices.get m).pending ↔ p ∈ (s.notices.get m).pending :=
  (mem_deliver_other hr).trans ((mem_deliver_other hr).trans (mem_deliver_other hr))

theorem mask_raiseSeat : ((raiseSeat k x d e s).notices.get m).mask = (s.notices.get m).mask :=
  (mask_deliver _ _ _ _ _).trans ((mask_deliver _ _ _ _ _).trans (mask_deliver _ _ _ _ _))

end

/-! ## The pass of a cabin that asks for nothing (spec/04 R71 to R75) -/

theorem allocate_idle (p : PassInput) (hd : p.demand = false) (hf : p.fans = .both ⟨0, 0⟩) (hr : p.requests = .both (Five.all 0))
    (h : p.overhead < p.cEff) : allocate p =
      { status := .full, demandSeen := false, permitted := false, fanCap := 3, fanGrants := .both ⟨0, 0⟩, dutyCap := 100,
        grants := .both (Five.all 0), heater := 0, total := p.overhead } := by
  have fansAt (n : Nat) : p.fansAt n = .both ⟨0, 0⟩ := by
    simp [PassInput.fansAt, hf, PerSeat.mapPairs, PerSeat.both, Pair.map]
  have fanSum (n : Nat) : p.fanSum n = 0 := by
    unfold PassInput.fanSum
    rw [fansAt]
    rfl
  have grants (n : Nat) : PerSeat.mapFives (min · n) p.requests = .both (Five.all 0) := by
    simp [hr, PerSeat.mapFives, PerSeat.both, Five.map, Five.all]
  have heatAt (n : Nat) : p.heatAt n = 0 := by
    unfold PassInput.heatAt
    rw [grants]
    simp [weigh, PerSeat.both, Five.all]
  have cap (a : Nat) : p.fanCapFor a = 3 := if_pos (by rw [fanSum]; exact Nat.zero_le a)
  have duty (a : Nat) : p.dutyCapFor a = 100 := if_pos (by rw [heatAt]; exact Nat.zero_le _)
  have refused (a : Nat) : p.pumpFits a = false := by rw [PassInput.pumpFits, hd, Bool.false_and]
  have pump (a : Nat) : p.pumpPart a = 0 := if_neg (by rw [refused]; decide)
  rw [allocate_above p h, cap, duty, fansAt, grants, heatAt, refused, pump, fanSum, hd]
  rfl

theorem budget_passCore_eq (s : State) : (passCore s).budget = { s.budget with
    result := allocate s.passInput, peak := max s.budget.peak (allocate s.passInput).total
    stepPeak := s.budget.stepPeak.map (max · (allocate s.passInput).total) } := by
  show (storeResult (allocate s.passInput) s).budget = _
  unfold storeResult noteLimited
  split <;> rfl

theorem pending_passCore (s : State) (k : Master) (n : Notice) (h : n.kind ≠ .budgetLimited) :
    n ∈ ((passCore s).notices.get k).pending ↔ n ∈ (s.notices.get k).pending := by
  rw [notices_passCore]
  split
  · exact mem_deliver_other (rank_ne_of_kind _ _ h)
  · exact Iff.rfl

theorem mask_passCore (s : State) (k : Master) : ((passCore s).notices.get k).mask = (s.notices.get k).mask := by
  rw [notices_passCore]
  split
  · exact mask_deliver _ _ _ _ _
  · rfl

/-- Where neither a request waits nor a grant is held, the pump is not wanted (spec/04 R72). -/
theorem permitted_of_idle {s : State} (hq : s.pneu.queue = []) (hh : s.pneu.holder = none) : (allocate s.passInput).permitted = false := by
  have demand : s.passInput.demand = false := by
    show s.pumpDemand = false
    rw [State.pumpDemand, hq, hh]
    rfl
  unfold allocate
  split
  · rfl
  · show (s.passInput.demand && _) = false
    rw [demand]
    rfl

/-! ## A withdrawal that is reported -/

theorem takeReport_withdrawn (r : Requester) (s : State) : takeReport (.ended r .withdrawn) s = s := by
  cases r with
  | massage x =>
    show cursorOutcome x .withdrawn s = s
    unfold cursorOutcome
    split <;> rfl
  | support x =>
    show supportOutcome x .withdrawn s = s
    unfold supportOutcome
    split <;> rfl

/-- A withdrawal alone, taken by its requester, changes nothing. -/
theorem settle_withdrawn (n : Nat) (s : State) (h : s.reports = [] ∨ ∃ r, s.reports = [.ended r .withdrawn]) :
    settle (n + 1) s = { s with reports := [] } := by
  rcases h with e | ⟨r, e⟩
  · rw [settle_nil _ _ e, ← e]
  · unfold settle
    rw [e]
    show settle n (takeReport (.ended r .withdrawn) { s with reports := [] }) = _
    rw [takeReport_withdrawn, settle_nil _ _ rfl]

/-! ## RESET SEATS (spec/01 R18, R19) -/

section

variable (s : State) (m : Master)

/-- The cabin cleared, before its notices. -/
def State.cabinCleared : State := dropSeatNotices (resetPneumatic (clearSeats s))

/-- The same with its notices, before the pass. -/
def State.cabinReset : State := raiseChanged m .right .wholeSeat (raiseChanged m .left .wholeSeat s.cabinCleared)

/-- The pneumatic controller after RESET SEATS (spec/05 R111). -/
def State.airReset : Pneumatic :=
  { holder := none, compressor := false, manifold := s.pneu.manifold, queue := [], rotation := 0, lastSeat := none
    selector := match s.pneu.selector with
      | .atRest .neutral => .atRest .neutral
      | .moving .neutral left => .moving .neutral left
      | _ => .moving .neutral s.switchTime
    vents := [⟨.reset, 0xFFFF, s.ventWindow⟩]
    parkNone := if s.pneu.holder.isSome then s.parksNowhere else s.pneu.parkNone }

theorem resetPneumatic_eq : ∃ l, (l = s.reports ∨ ∃ r, l = s.reports ++ [.ended r .withdrawn]) ∧
    resetPneumatic s = { s with pneu := s.airReset, reports := l } := by
  have order (l : List Report) : orderSelector .neutral { s with
      pneu := { s.pneu with
        holder := none, compressor := false, queue := [], rotation := 0, lastSeat := none
        vents := [⟨.reset, 0xFFFF, s.ventWindow⟩], parkNone := s.parkingAfterReset }
      reports := l } = { s with pneu := s.airReset, reports := l } := by
    unfold orderSelector State.airReset State.parkingAfterReset
    dsimp only
    cases s.pneu.selector with
    | atRest p => cases p <;> rfl
    | moving p left => cases p <;> rfl
  unfold resetPneumatic
  cases hh : s.pneu.holder with
  | none =>
    exact ⟨s.reports, .inl rfl, order s.reports⟩
  | some g =>
    have ended := order (s.reports ++ [Report.ended g.entry.requester .withdrawn])
    exact ⟨_, .inr ⟨g.entry.requester, rfl⟩, ended⟩

theorem cabinReset_touches : s.cabinReset m = { s.cabinCleared with notices := (s.cabinReset m).notices } := by
  unfold State.cabinReset raiseChanged
  rw [raiseSeat_touches, raiseSeat_touches _ .left]

/-- What the cleared cabin is, but for its pending sets. -/
theorem cabinReset_eq : ∃ l, (l = s.reports ∨ ∃ r, l = s.reports ++ [.ended r .withdrawn]) ∧
    s.cabinReset m = { clearSeats s with pneu := s.airReset, reports := l, notices := (s.cabinReset m).notices } := by
  obtain ⟨l, hl, e⟩ := resetPneumatic_eq (clearSeats s)
  refine ⟨l, hl, ?_⟩
  rw [cabinReset_touches]
  unfold State.cabinCleared
  rw [e]
  rfl

theorem notices_cabinCleared (k : Master) : (s.cabinCleared.notices.get k).pending =
    (s.notices.get k).pending.filter (fun n => !n.kind.isSeatKind) ∧ (s.cabinCleared.notices.get k).mask = (s.notices.get k).mask := by
  have notices : s.cabinCleared.notices = (dropSeatNotices s).notices := by
    obtain ⟨l, -, e⟩ := resetPneumatic_eq (clearSeats s)
    unfold State.cabinCleared
    rw [e]
    rfl
  rw [notices]
  cases k <;> exact ⟨rfl, rfl⟩

end

/-! ## The cleared channels (spec/01 R18, spec/02 R44, spec/03 R55) -/

section

variable (s : State) (m : Master)

theorem cabinReset_clears : ∃ l, (l = s.reports ∨ ∃ r, l = s.reports ++ [.ended r .withdrawn]) ∧
    (s.cabinReset m).seats = (clearSeats s).seats ∧ (s.cabinReset m).zones = (clearSeats s).zones ∧
    (s.cabinReset m).fans = (clearSeats s).fans ∧ (s.cabinReset m).cursors = (clearSeats s).cursors ∧
    (s.cabinReset m).regulators = (clearSeats s).regulators ∧ (s.cabinReset m).pneu = s.airReset ∧
    (s.cabinReset m).budget = s.budget ∧ (s.cabinReset m).params = s.params ∧ (s.cabinReset m).reports = l ∧
    (s.cabinReset m).releases = s.releases := by
  obtain ⟨l, hl, e⟩ := cabinReset_eq s m
  exact ⟨l, hl, (congrArg (·.seats) e :), (congrArg (·.zones) e :), (congrArg (·.fans) e :), (congrArg (·.cursors) e :),
    (congrArg (·.regulators) e :), (congrArg (·.pneu) e :), (congrArg (·.budget) e :), (congrArg (·.params) e :),
    (congrArg (·.reports) e :), (congrArg (·.releases) e :)⟩

theorem zone_clearSeats (z : ZoneId) : (clearSeats s).zone z = (s.zone z).cleared (s.active z.seat) := by
  obtain ⟨x, p⟩ := z
  cases x <;> exact Five.get_map _ _ _

theorem fan_clearSeats (f : FanId) : (clearSeats s).fan f = resetFan (s.fan f) := by
  obtain ⟨x, p⟩ := f
  cases x <;> exact Pair.get_map _ _ _

theorem seat_clearSeats (x : Seat) : (clearSeats s).seat x = (s.seat x).cleared := by
  cases x <;> rfl

theorem cleared_kept (active : Bool) (c : ZoneChannel) : takeGrant 0 (c.cleared active) = { c with
    state := if active then .off else .standby
    streak := 0, request := 0, grant := 0, latch := false, openLoad := 0, window := 0, minutes := 0, minuteMs := 0
    gate := false, onSlots := 0, unjudged := false, carried := false } := rfl

/-- What a cabin without a request or a level asks of a pass. -/
theorem passInput_cabinReset : (s.cabinReset m).passInput.demand = false ∧
    (s.cabinReset m).passInput.fans = .both ⟨0, 0⟩ ∧ (s.cabinReset m).passInput.requests = .both (Five.all 0) ∧
    (s.cabinReset m).passInput.cEff = s.budget.cEff ∧ (s.cabinReset m).passInput.overhead = s.overhead := by
  obtain ⟨l, -, -, zones, fans, -, -, pneu, budget, params, -, -⟩ := cabinReset_clears s m
  refine ⟨?_, ?_, ?_, congrArg Budget.cEff budget, ?_⟩
  · show (s.cabinReset m).pumpDemand = false
    unfold State.pumpDemand
    rw [pneu]
    rfl
  · unfold State.passInput
    rw [fans]
    rfl
  · unfold State.passInput
    rw [zones]
    rfl
  · show (s.cabinReset m).overhead = _
    unfold State.overhead State.param
    rw [params]

theorem told_cabinReset (x : Seat) : s.told (s.cabinReset m) .changed x (.changed .wholeSeat) (some m) := by
  have rights (u : State) (hu : u.access = s.access) (k : Master) (h : s.mayRead k x.region = true) : u.mayRead k x.region = true := by
    unfold State.mayRead at h ⊢
    rw [hu]
    exact h
  have cleared : s.cabinCleared.access = s.access := by
    obtain ⟨l, -, e⟩ := resetPneumatic_eq (clearSeats s)
    unfold State.cabinCleared
    rw [e]
    rfl
  have first : (raiseChanged m .left .wholeSeat s.cabinCleared).access = s.access := by
    refine Eq.trans ?_ cleared
    unfold raiseChanged
    rw [raiseSeat_touches]
  intro k hr he
  cases x with
  | left =>
    refine (mem_raiseSeat_other (by decide)).mpr ?_
    exact raiseSeat_reaches _ _ _ _ _ k (rights _ cleared k hr) he
  | right => exact raiseSeat_reaches _ _ _ _ _ k (rights _ first k hr) he

/-- The seat pairs that RESET SEATS leaves pending are its own, and the device-wide ones stand. -/
theorem notices_cabinReset (k : Master) : ((s.cabinReset m).notices.get k).mask = (s.notices.get k).mask ∧
    (∀ n ∈ ((s.cabinReset m).notices.get k).pending, n.kind.isSeatKind = true → n.kind = .changed ∧ n.detail = .changed .wholeSeat) ∧
    ∀ n : Notice, n.kind.isSeatKind = false →
      (n ∈ ((s.cabinReset m).notices.get k).pending ↔ n ∈ (s.notices.get k).pending) := by
  obtain ⟨pending, mask⟩ := notices_cabinCleared s k
  refine ⟨mask_raiseSeat.trans (mask_raiseSeat.trans mask), fun n hn hk => ?_, fun n hk => ?_⟩
  · rcases mem_raiseSeat_of_mem hn with e | hn
    · subst e
      exact ⟨rfl, rfl⟩
    rcases mem_raiseSeat_of_mem hn with e | hn
    · subst e
      exact ⟨rfl, rfl⟩
    rw [pending, List.mem_filter, hk] at hn
    cases hn.2
  · have differs (x : Seat) : n.rank ≠ (⟨.changed, some x, .changed .wholeSeat⟩ : Notice).rank :=
      rank_ne_of_kind _ _ fun e => by
        rw [e] at hk
        cases hk
    refine (mem_raiseSeat_other (differs .right)).trans ((mem_raiseSeat_other (differs .left)).trans ?_)
    rw [pending, List.mem_filter, hk]
    exact ⟨fun h => h.1, fun h => ⟨h, rfl⟩⟩

end

/-- What the pass of the cleared cabin leaves of the state before. -/
theorem passed_cabinReset (s : State) (m : Master) : ∃ seats zones fans cursors regulators notices reports,
    passCore (s.cabinReset m) = { s with
      seats := seats, zones := zones, fans := fans, pneu := s.airReset, cursors := cursors, regulators := regulators
      notices := notices, reports := reports
      budget := { s.budget with
        result := allocate (s.cabinReset m).passInput
        peak := max s.budget.peak (allocate (s.cabinReset m).passInput).total
        stepPeak := s.budget.stepPeak.map (max · (allocate (s.cabinReset m).passInput).total) } } := by
  have pass := passCore_touches (s.cabinReset m)
  rw [budget_passCore_eq] at pass
  obtain ⟨l, -, e⟩ := cabinReset_eq s m
  generalize allocate (s.cabinReset m).passInput = a at pass ⊢
  generalize passCore (s.cabinReset m) = t at pass ⊢
  rw [pass, e]
  exact ⟨_, _, _, _, _, _, _, rfl⟩

/-- The effect of RESET SEATS: the cleared cabin and its pass (spec/05 R111, spec/01 R18). -/
theorem taken_resetSeats {m : Master} {s : State} (h : s.onBus) (hl : s.mayWrite m .leftSeat = true)
    (hr : s.mayWrite m .rightSeat = true) (s' : State) (hs' : s' = { s with bus := .idle }) :
    exec (.resetSeats m) s = .next { recordResult m 0x18 none (passCore (s'.cabinReset m), .ok) with
      reports := [], releases := .select } := by
  obtain ⟨l, hlist, -, -, -, -, -, pneu, -, -, reports, releases⟩ := cabinReset_clears s' m
  have silent : s'.reports = [] := by
    rw [hs']
    exact h.1.2.1
  have select : s'.releases = .select := by
    rw [hs']
    exact h.1.2.2
  have passed : runPass (s'.cabinReset m) = passCore (s'.cabinReset m) :=
    runPass_refused (permitted_of_idle (congrArg Pneumatic.queue pneu) (congrArg Pneumatic.holder pneu)) (congrArg Pneumatic.holder pneu)
  have effect : writeRow (takeResetSeats m) s = recordResult m 0x18 none (passCore (s'.cabinReset m), .ok) := by
    have both : (s'.mayWrite m .leftSeat && s'.mayWrite m .rightSeat) = true := by
      rw [hs', Bool.and_eq_true]
      exact ⟨hl, hr⟩
    rw [writeRow_onBus _ s h, ← hs', ← passed]
    unfold takeResetSeats ownResetSeats
    rw [if_pos both]
    rfl
  have settled : runEffect (writeRow (takeResetSeats m)) s =
      { recordResult m 0x18 none (passCore (s'.cabinReset m), .ok) with reports := [] } := by
    unfold runEffect
    rw [effect]
    refine settle_withdrawn _ _ ?_
    show (passCore (s'.cabinReset m)).reports = [] ∨ ∃ r, (passCore (s'.cabinReset m)).reports = [.ended r .withdrawn]
    rw [passCore_reports.1, reports]
    rw [silent] at hlist
    exact hlist
  have still : (recordResult m 0x18 none (passCore (s'.cabinReset m), .ok)).releases = .select := by
    show (passCore (s'.cabinReset m)).releases = .select
    rw [passCore_touches]
    exact releases.trans select
  show taken (writeRow (takeResetSeats m)) s = _
  rw [taken_awake _ s h.1, settled]
  dsimp only
  rw [still]
  rfl

/-- Whatever the pass does to the cabin's blocks, the rest of the part is as the record leaves it. -/
theorem recorded_of_passed {s u : State} {m : Master} (hr : s.reports = []) (hs : s.releases = .select)
    {seats zones fans pneu cursors regulators notices reports result peak stepPeak}
    (hu : u = { ({ s with bus := .idle } : State) with
      seats := seats, zones := zones, fans := fans, pneu := pneu, cursors := cursors, regulators := regulators
      notices := notices, reports := reports
      budget := { s.budget with result := result, peak := peak, stepPeak := stepPeak } }) :
    { ({ recordResult m 0x18 none (u, .ok) with reports := [], releases := .select } : State) with
      seats := s.seats, zones := s.zones, fans := s.fans, pneu := s.pneu, cursors := s.cursors, regulators := s.regulators
      notices := s.notices, budget := { u.budget with
        result := s.budget.result, peak := s.budget.peak, stepPeak := s.budget.stepPeak } } = s.recorded m 0x18 none .ok := by
  rw [hu, ← hr, ← hs]
  rfl

/-- Settles O17: what RESET SEATS clears, and all that stands. -/
theorem resetSeatsClears : Obligations.ResetSeatsClears := by
  intro m s h hl hr
  let s' : State := { s with bus := .idle }
  obtain ⟨l, hlist, seats, zones, fans, cursors, regulators, pneu, budget, params, reports, releases⟩ := cabinReset_clears s' m
  obtain ⟨demand, asked, requests, ceiling, overhead⟩ := passInput_cabinReset s' m
  have clearedZone (z : ZoneId) : (s'.cabinReset m).zone z = (s.zone z).cleared (s.active z.seat) := by
    unfold State.zone
    rw [zones]
    exact zone_clearSeats s' z
  have clearedFan (f : FanId) : (s'.cabinReset m).fan f = resetFan (s.fan f) := by
    unfold State.fan
    rw [fans]
    exact fan_clearSeats s' f
  have seat (x : Seat) : (passCore (s'.cabinReset m)).seat x = (s.seat x).cleared := by
    rw [passCore_touches]
    unfold State.seat
    rw [show _ = (clearSeats s').seats from seats]
    exact seat_clearSeats s' x
  obtain ⟨seats', zones', fans', cursors', regulators', notices', reports', whole⟩ := passed_cabinReset s' m
  have status : s.overhead < s.budget.cEff → allocate (s'.cabinReset m).passInput =
      { status := .full, demandSeen := false, permitted := false, fanCap := 3, fanGrants := .both ⟨0, 0⟩, dutyCap := 100
        grants := .both (Five.all 0), heater := 0, total := s.overhead } := fun above => by
    rw [allocate_idle _ demand asked requests (by rw [ceiling, overhead]; exact above), overhead]
    rfl
  have starved : s.budget.cEff ≤ s.overhead → (allocate (s'.cabinReset m).passInput).status = .starved ∧
      (allocate (s'.cabinReset m).passInput).total = s.overhead := fun below => by
    rw [allocate_starved _ (by rw [ceiling, overhead]; exact below)]
    exact ⟨rfl, overhead⟩
  have total : (allocate (s'.cabinReset m).passInput).total = s.overhead := by
    rcases Nat.lt_or_ge s.overhead s.budget.cEff with above | below
    · rw [status above]
    · exact (starved below).2
  have zone (z : ZoneId) : (passCore (s'.cabinReset m)).zone z = takeGrant 0 ((s.zone z).cleared (s.active z.seat)) := by
    have none : (allocate (s'.cabinReset m).passInput).grantOf z = 0 := by
      refine Nat.le_zero.mp (Nat.le_trans (grantOf_le _ z) (Nat.le_of_eq ?_))
      rw [clearedZone]
      rfl
    rw [zone_passCore, none, clearedZone]
  have fan (f : FanId) : (passCore (s'.cabinReset m)).fan f = setGranted 0 (resetFan (s.fan f)) := by
    have none : (allocate (s'.cabinReset m).passInput).levelOf f = 0 := by
      refine Nat.le_zero.mp (Nat.le_trans (levelOf_le _ f) (Nat.le_of_eq ?_))
      rw [clearedFan]
      rfl
    rw [fan_passCore, none, clearedFan]
  have cursor (x : Seat) : (passCore (s'.cabinReset m)).cursor x = Cursor.powerOn := by
    rw [passCore_touches]
    unfold State.cursor
    rw [show _ = (clearSeats s').cursors from cursors]
    cases x <;> rfl
  have regulator (x : Seat) : (passCore (s'.cabinReset m)).regulator x = (s.regulator x).cleared := by
    rw [passCore_touches]
    unfold State.regulator
    rw [show _ = (clearSeats s').regulators from regulators]
    cases x <;> rfl
  have told (x : Seat) : s.told (passCore (s'.cabinReset m)) .changed x (.changed .wholeSeat) (some m) := fun k hr he =>
    (pending_passCore _ k _ (fun e => by cases e)).mpr (told_cabinReset s' m x k hr he)
  have seatPairs (k : Master) (n : Notice) (hn : n ∈ ((passCore (s'.cabinReset m)).notices.get k).pending)
      (hk : n.kind.isSeatKind = true) : n.kind = .changed ∧ n.detail = .changed .wholeSeat :=
    (notices_cabinReset s' m k).2.1 n ((pending_passCore _ k n (fun e => by rw [e] at hk; cases hk)).mp hn) hk
  have mask (k : Master) : ((passCore (s'.cabinReset m)).notices.get k).mask = (s.notices.get k).mask :=
    (mask_passCore _ k).trans (notices_cabinReset s' m k).1
  have devicePairs (k : Master) (n : Notice) (hk : n.kind.isSeatKind = false)
      (hn : n.kind ≠ .budgetLimited ∨ s.overhead < s.budget.cEff) :
      n ∈ ((passCore (s'.cabinReset m)).notices.get k).pending ↔ n ∈ (s.notices.get k).pending := by
    refine Iff.trans ?_ ((notices_cabinReset s' m k).2.2 n hk)
    rcases hn with other | above
    · exact pending_passCore _ k n other
    · rw [notices_passCore, if_neg fun limited => limited.2 (by rw [status above])]
  have effect := taken_resetSeats h hl hr s' rfl
  generalize passCore (s'.cabinReset m) = u at seat whole zone fan cursor regulator told seatPairs mask devicePairs effect
  generalize allocate (s'.cabinReset m).passInput = a at whole status starved total
  refine ⟨_, effect, ?_, fun z => ⟨?_, zone z⟩, fun f => ⟨?_, fan f⟩, fun x c => ?_, fun x => ?_, ?_, seatPairs, told,
    fun k => ⟨mask k, devicePairs k⟩, recorded_of_passed h.1.2.1 h.1.2.2 whole, ?_, ?_, fun above => ?_, fun below => ?_⟩
  · show u.results.set m _ = _
    rw [whole]
  · show (u.seat z.seat).levels.get z.part = _
    rw [seat z.seat]
    cases z.part <;> rfl
  · show (u.seat f.seat).fanLevels.get f.part = _
    rw [seat f.seat]
    cases f.part <;> rfl
  · show (u.seat x).setpoints.get c = _
    rw [seat x]
    cases c <;> rfl
  · show (u.seat x).underfill = 0 ∧ (u.seat x).occupancy = _ ∧ (u.seat x).timer = _ ∧ (u.seat x).debounced = _ ∧
      (u.seat x).debounceTimer = _ ∧ (u.seat x).rawLevel = _ ∧ u.cursor x = _ ∧ u.regulator x = _
    rw [seat x, cursor, regulator]
    exact ⟨rfl, rfl, rfl, rfl, rfl, rfl, rfl, rfl⟩
  · show u.pneu = _
    rw [whole]
    rfl
  · show u.budget.peak = _
    rw [whole, total]
  · show u.budget.stepPeak = _
    rw [whole, total]
  · show u.budget.result = _
    rw [whole, status above]
  · show u.budget.result.status = _ ∧ u.budget.result.total = _
    rw [whole]
    exact starved below

end Sys2Proof.Machine
end
section
/-! PROOFS. The selection of a cell (spec/08 R162) and SUPPORT_REFRESH_EXPIRY (O50). -/
namespace Sys2Proof.Machine

/-! ## The selection -/

section

variable {x : Seat} {s : State}

theorem nextCell_eq_none {r : Regulator} (h : ∀ c, r.needs.get c ≠ .fill) : r.nextCell = none := by
  refine List.find?_eq_none.mpr fun c _ e => h c ?_
  simpa using e

/-- The lowest-numbered cell to be filled is the next. -/
theorem nextCell_eq_some {r : Regulator} {k : HoldCell} (hk : r.needs.get k = .fill)
    (hl : ∀ c, cellNumber c < cellNumber k → r.needs.get c ≠ .fill) : r.nextCell = some k := by
  have below (c : HoldCell) (h : cellNumber c < cellNumber k) : (r.needs.get c == .fill) = false := by simpa using hl c h
  have own : (r.needs.get k == Need.fill) = true := by simpa using hk
  unfold Regulator.nextCell holdCells
  cases k with
  | l0 => simp [List.find?, own]
  | l1 => simp [List.find?, own, below .l0 (by decide)]
  | s0 => simp [List.find?, own, below .l0 (by decide), below .l1 (by decide)]
  | s1 => simp [List.find?, own, below .l0 (by decide), below .l1 (by decide), below .s0 (by decide)]

/-- An EMPTY seat, a cell in service or nothing to fill: no cell is selected (spec/08 R162). -/
theorem selectCell_idle (h : (s.seat x).occupancy = .empty ∨ (s.regulator x).service ≠ .free ∨
    ∀ c, (s.regulator x).needs.get c ≠ .fill) : selectCell x s = s := by
  unfold selectCell
  split
  · rename_i free
    rcases h with e | e | e
    · exact absurd e free.2
    · exact absurd free.1 e
    · rw [nextCell_eq_none e]
  · rfl

/-- A selection asks for the lowest-numbered cell to be filled. -/
theorem selectCell_asks {k : HoldCell} (ho : (s.seat x).occupancy ≠ .empty) (hs : (s.regulator x).service = .free)
    (hk : (s.regulator x).needs.get k = .fill) (hl : ∀ c, cellNumber c < cellNumber k → (s.regulator x).needs.get c ≠ .fill) :
    selectCell x s = requestFill (.support x) (cellBit k) (s.setpoint x k).value (s.setService x (.waiting k)) := by
  unfold selectCell
  rw [if_pos ⟨hs, ho⟩, nextCell_eq_some hk hl]

theorem cellBit_ne_zero (k : HoldCell) : cellBit k ≠ 0 := by cases k <;> decide

/-- In a starved part at rest the request of a selection waits alone (spec/08 R162, spec/04 R71). -/
theorem selectCell_starved {k : HoldCell} (ho : (s.seat x).occupancy ≠ .empty) (hs : (s.regulator x).service = .free)
    (hk : (s.regulator x).needs.get k = .fill) (hl : ∀ c, cellNumber c < cellNumber k → (s.regulator x).needs.get c ≠ .fill)
    (hq : s.pneu.queue = []) (hh : s.pneu.holder = none) (starved : s.budget.cEff ≤ s.overhead) :
    selectCell x s = passCore ((s.setService x (.waiting k)).modPneu fun p =>
      { p with queue := [requestEntry (.support x) (cellBit k) (s.setpoint x k).value] }) := by
  rw [selectCell_asks ho hs hk hl]
  exact requestFill_starved (s := s.setService x (.waiting k)) _ (cellBit_ne_zero k) hq hh starved

end

theorem refresh_of_bystander {s t : State} (h : t.bystander = s.bystander) (x : Seat) :
    (t.regulator x).refresh = (s.regulator x).refresh := by
  have regulators : t.bystander.regulators = s.bystander.regulators := congrArg (·.regulators) h
  cases x
  · exact (congrArg (fun r => r.left.refresh) regulators :)
  · exact (congrArg (fun r => r.right.refresh) regulators :)

/-! ## SUPPORT_REFRESH_EXPIRY (spec/08 R165) -/

/-- The regulator with its refresh timer restarted and its cells marked. -/
def State.refreshed (s : State) (x : Seat) : State :=
  s.modRegulator x fun r =>
    { r with
      needs := ⟨needAfterRefresh s x .l0, needAfterRefresh s x .l1, needAfterRefresh s x .s0, needAfterRefresh s x .s1⟩
      refresh := s.supportInterval }

section

variable (s : State) (x : Seat)

theorem regulator_refreshed : (s.refreshed x).regulator x = { s.regulator x with
    needs := ⟨needAfterRefresh s x .l0, needAfterRefresh s x .l1, needAfterRefresh s x .s0, needAfterRefresh s x .s1⟩
    refresh := s.supportInterval } := State.regulator_modRegulator s x _

theorem need_refreshed (c : HoldCell) : ((s.refreshed x).regulator x).needs.get c = needAfterRefresh s x c := by
  rw [regulator_refreshed]
  cases c <;> rfl

end

/-- Settles O50: the marks, and the selection they lead to. -/
theorem supportRefreshMarks : Obligations.SupportRefreshMarks := by
  intro x s h mark r
  let u := s.refreshed x
  have due (ht : (s.regulator x).refresh = 0) : expireSupport x s = selectCell x u := by
    unfold expireSupport
    rw [if_pos ht]
    rfl
  refine ⟨fun ht => taken_still h (if_neg ht), fun ht => ⟨?_, fun idle => ?_, fun k ho hs hk hl hq starved => ?_⟩⟩
  · obtain ⟨t, taken, followed⟩ := taken_next (expireSupport x) s h
    have same : t.bystander = u.bystander := by
      rw [due ht] at followed
      exact followed.bystander.trans (stirs_selectCell (P := fun _ => True) (.same u) x).bystander
    refine ⟨t, taken, (refresh_of_bystander same x).trans ?_, same⟩
    rw [regulator_refreshed]
  · have still : selectCell x u = u := by
      refine selectCell_idle (idle.imp id (Or.imp (fun e => ?_) fun e c => ?_))
      · rw [regulator_refreshed]
        exact e
      · rw [need_refreshed]
        exact e c
    have effect : expireSupport x s = r := (due ht).trans still
    show taken (expireSupport x) s = _
    rw [← effect]
    exact taken_quiet _ s h (by rw [effect]; exact h.2.1) (by rw [effect]; exact h.2.2)
  · obtain ⟨queue, holder, -⟩ := (airQuiet_iff s).mp hq
    have regulator : u.regulator x = _ := regulator_refreshed s x
    have effect : expireSupport x s = passCore ((u.setService x (.waiting k)).modPneu fun p =>
        { p with queue := [requestEntry (.support x) (cellBit k) (s.setpoint x k).value] }) :=
      (due ht).trans (selectCell_starved (s := u) ho (by rw [regulator]; exact hs) (by rw [need_refreshed]; exact hk)
        (fun c hc => by rw [need_refreshed]; exact hl c hc) queue holder starved)
    refine ⟨_, taken_quiet (expireSupport x) s h ?_ ?_, ?_, ?_, ?_⟩
    · rw [effect]
      exact passCore_reports.1.trans h.2.1
    · rw [effect]
      exact passCore_reports.2.trans h.2.2
    · rw [effect, passCore_touches]
      show (u.setService x (.waiting k)).regulator x = _
      unfold State.setService
      rw [State.regulator_modRegulator, regulator]
      rfl
    · rw [effect, passCore_pneu, requestEntry, Nat.min_comm]
      rfl
    · rw [due ht]
      exact (stirs_selectCell (P := fun _ => True) (.same u) x).bystander

end Sys2Proof.Machine
end
section
/-! PROOFS. DWELL_END and PROGRAM_TIMER_EXPIRY (O49): the advance, the steps it enters, and the ends and faults it leads to. -/
namespace Sys2Proof.Machine

/-! ## A part whose cursor has moved -/

/-- The part after reads of the store and with this cursor record, its air system and the settings that a cursor keeps as before. -/
structure Entered (s : State) (x : Seat) (c : Cursor) (u : State) : Prop where
  air : AirAlike s u
  same : u.bystander = s.bystander
  cursor : u.cursor x = c

namespace Entered

variable {s u : State} {x : Seat} {c : Cursor}

theorem refl (s : State) (x : Seat) : Entered s x (s.cursor x) s := ⟨⟨rfl, rfl, rfl⟩, rfl, rfl⟩

theorem read (i : StepIndex) (h : Entered s x c u) : Entered s x c (readRecord i u) where
  air := h.air.trans (by rw [readRecord_touches]; exact ⟨rfl, rfl, rfl⟩)
  same := (bystander_readRecord u i).trans h.same
  cursor := (readRecord_cursor u i x).trans h.cursor

theorem move (f : Cursor → Cursor) (hf : (f c).intensity = c.intensity ∧ (f c).speed = c.speed ∧ (f c).origin = c.origin)
    (h : Entered s x c u) : Entered s x (f c) (u.modCursor x f) where
  air := h.air.trans ⟨rfl, rfl, rfl⟩
  same := (bystander_modCursor u x f (by rw [h.cursor]; exact hf)).trans h.same
  cursor := by rw [State.cursor_modCursor, h.cursor]

theorem ventWindow (h : Entered s x c u) : u.ventWindow = s.ventWindow := param_of_bystander h.same 49

theorem overhead (h : Entered s x c u) : u.overhead = s.overhead ∧ u.budget.cEff = s.budget.cEff :=
  ⟨param_of_bystander h.same 45, cEff_of_bystander h.same⟩

end Entered

section

variable {s u : State} {x : Seat} {c : Cursor} {f : State → State}

theorem enterFault_quiet (code : FaultCode) (hq : s.pneu.queue = []) (hh : s.pneu.holder = none) : enterFault x code s =
    raiseSeat .airFault x (.massageFault code (s.cursor x).stepOrZero) none
      (startVent (.requester (.massage x)) massageCells (s.modCursor x (Cursor.faulted code))) := by
  unfold enterFault
  rw [withdrawCursor_quiet x hq hh]
  exact congrArg (raiseSeat .airFault x (.massageFault code (s.cursor x).stepOrZero) none)
    (requestVent_quiet (s := s.modCursor x (Cursor.faulted code)) _ (by decide) hq hh)

/-- A cursor out of its fill phases has nothing to withdraw. -/
theorem withdrawCursor_idle (h : (s.cursor x).fillPhase = false) : withdrawCursor x s = s := if_neg (by rw [h]; decide)

/-- A fault that an event leads to out of a phase without a fill (spec/07 R151). -/
theorem taken_faults (code : FaultCode) (h : s.awake) (hu : Entered s x c u) (e : f s = enterFault x code u) :
    ∃ t, taken f s = .next t ∧ t.bystander = s.bystander ∧ t.cursor x = c.faulted code ∧
      (s.airQuiet = true → (⟨.requester (.massage x), massageCells, s.ventWindow⟩ : VentOp) ∈ t.pneu.vents ∧
        s.told t .airFault x (.massageFault code c.stepOrZero) none) := by
  have silent : u.unreported (.massage x) := unreported_of_awake (hu.air.reports.trans h.2.1)
  have rest := rests_enterFault (b := False) code silent (fun k => k.elim)
  rw [← e, hu.cursor, hu.ventWindow] at rest
  obtain ⟨t, ht, rests, followed⟩ := (rests_keep (by rfl)).taken_both h rest
  refine ⟨t, ht, followed.bystander.trans ?_, rests.cursor, fun quiet => ⟨rests.vents, ?_⟩⟩
  · rw [e]
    exact (stirs_enterFault (P := fun _ => True) (.same u) x trivial code).bystander.trans hu.same
  · obtain ⟨queue, holder, -⟩ := (airQuiet_iff u).mp (hu.air.quiet quiet)
    have exactly := e.trans (enterFault_quiet code queue holder)
    rw [hu.cursor] at exactly
    have still := taken_quiet f s h (by rw [exactly, raiseSeat_touches]; exact hu.air.reports.trans h.2.1)
      (by rw [exactly, raiseSeat_touches]; exact hu.air.releases.trans h.2.2)
    cases Host.Outcome.next.inj (ht.symm.trans still)
    rw [exactly]
    intro m hr he
    refine raiseSeat_reaches _ _ _ _ _ m ?_ he
    unfold State.mayRead at hr ⊢
    show rightReads ((u.access.get m).get x.region) = true
    rw [access_of_bystander hu.same]
    exact hr

/-- An end that an event leads to out of a phase without a fill (spec/07 R149). -/
theorem taken_ends (cause : EndCause) (h : s.awake) (hu : Entered s x c u) (e : f s = enterEnding x cause u) :
    ∃ t, taken f s = .next t ∧ t.cursor x = c.ended cause ∧ t.bystander = s.bystander := by
  have silent : u.unreported (.massage x) := unreported_of_awake (hu.air.reports.trans h.2.1)
  have rest := rests_enterEnding (b := False) cause silent (fun k => k.elim)
  rw [← e, hu.cursor] at rest
  obtain ⟨t, ht, rests, followed⟩ := (rests_keep (by rfl)).taken_both h rest
  refine ⟨t, ht, rests.cursor, followed.bystander.trans ?_⟩
  rw [e]
  exact (stirs_enterEnding (P := fun _ => True) (.same u) x trivial cause).bystander.trans hu.same

end

/-! ## What a fetch finds (spec/06 R119 to R122) -/

section

variable {s : State} {j : StepIndex} {g : StepFields}

theorem fetch_found (h : if 64 ≤ j.toNat then (s.ramRecord j).weight ≤ 1 ∧ (s.ramRecord j).content = some g else g = romRecord j.toNat) :
    s.fetch j = .inl g := by
  unfold State.fetch
  by_cases hj : 64 ≤ j.toNat
  · rw [if_pos hj] at h
    rw [storeAnswer_ram hj, h.2]
    by_cases hw : (s.ramRecord j).weight = 0
    · rw [if_pos hw]
    · rw [if_neg hw, if_pos (by omega)]
  · rw [if_neg hj] at h
    rw [storeAnswer_rom (by omega), h]

theorem fetch_blank (hj : 64 ≤ j.toNat) (hc : (s.ramRecord j).content = none) (hw : (s.ramRecord j).weight ≤ 1) :
    s.fetch j = .inr .blank := by
  unfold State.fetch
  rw [storeAnswer_ram hj, hc]
  by_cases e : (s.ramRecord j).weight = 0
  · rw [if_pos e]
  · rw [if_neg e, if_pos (by omega)]

theorem fetch_uncorrectable (hj : 64 ≤ j.toNat) (hw : 2 ≤ (s.ramRecord j).weight) : s.fetch j = .inr .store := by
  unfold State.fetch
  rw [storeAnswer_ram hj, if_neg (by omega), if_neg (by omega)]

/-- A record of ROM and a clean one are read as they stand. -/
theorem readRecord_clean (h : ¬ 64 ≤ j.toNat ∨ (s.ramRecord j).weight = 0) : readRecord j s = s := by
  by_cases hj : 64 ≤ j.toNat
  · have e := storeAnswer_ram (s := s) hj
    rw [if_pos (h.resolve_left fun k => k hj)] at e
    rw [readRecord_ram e]
    rfl
  · exact readRecord_rom (storeAnswer_rom (by omega))

theorem readRecord_corrected (hj : 64 ≤ j.toNat) (hw : (s.ramRecord j).weight = 1) : readRecord j s = correctRecord j s := by
  have e := storeAnswer_ram (s := s) hj
  rw [if_neg (by omega), if_pos hw] at e
  rw [readRecord_ram e]
  rfl

theorem correctRecord_ram : (correctRecord j s).ram = (s.putRam j { content := (s.ramRecord j).content, weight := 0 }).ram ∧
    (correctRecord j s).log = s.log.correct j := by
  unfold correctRecord
  dsimp only
  split
  · exact ⟨rfl, rfl⟩
  · unfold raiseDevice
    rw [deliver_touches]
    exact ⟨rfl, rfl⟩

/-- A VALID record written back is found again, whatever else the table holds. -/
theorem ramRecord_written (m : List (Nat × RamRecord)) (k : Nat) :
    Table.get blankRecord (Table.put blankRecord m k ⟨some g, 0⟩) k = ⟨some g, 0⟩ := by
  have listed : (⟨some g, 0⟩ : RamRecord) ≠ blankRecord k := fun e => by cases e
  induction m with
  | nil => simp [Table.put, Table.get, listed]
  | cons e m ih =>
    obtain ⟨k', v'⟩ := e
    unfold Table.put
    split
    · simp [Table.get]
    · split
      · simp [Table.get]
      · rename_i h
        simp [Table.get, h, ih]

theorem ramRecord_corrected (hc : (s.ramRecord j).content = some g) : (correctRecord j s).ramRecord j = ⟨some g, 0⟩ := by
  unfold State.ramRecord
  rw [correctRecord_ram.1, hc]
  exact ramRecord_written _ _

/-- A record that has been fetched is fetched again. -/
theorem fetch_readRecord (h : s.fetch j = .inl g) : (readRecord j s).fetch j = .inl g := by
  by_cases hj : 64 ≤ j.toNat
  · by_cases hw : (s.ramRecord j).weight = 1
    · have content : (s.ramRecord j).content = some g := by
        unfold State.fetch at h
        rw [storeAnswer_ram hj, if_neg (by omega), if_pos hw] at h
        cases hc : (s.ramRecord j).content with
        | none => rw [hc] at h; cases h
        | some g' => rw [hc] at h; cases h; rfl
      have written := ramRecord_corrected content
      rw [← readRecord_corrected hj hw] at written
      exact fetch_found (by rw [if_pos hj, written]; exact ⟨Nat.zero_le _, rfl⟩)
    · by_cases hz : (s.ramRecord j).weight = 0
      · rw [readRecord_clean (.inr hz)]
        exact h
      · rw [fetch_uncorrectable hj (by omega)] at h
        cases h
  · rw [readRecord_clean (.inl hj)]
    exact h

end

/-! ## The advance and the entry of a step (spec/07 R138 to R140, R145) -/

theorem effectiveDwell_eq (dwell speed : Nat) :
    effectiveDwell dwell speed = if dwell = 0 then 0 else max 1 (dwell * speedPercent speed / 100) := by
  unfold effectiveDwell
  by_cases h : dwell = 0
  · simp [h]
  · dsimp only
    rw [if_neg h]
    split <;> omega

theorem effectiveDwell_eq_zero (dwell speed : Nat) : effectiveDwell dwell speed = 0 ↔ dwell = 0 := by
  rw [effectiveDwell_eq]
  split <;> omega

/-- The cursor's record once it has fetched a step. -/
def Cursor.fetched (j : StepIndex) (g : StepFields) (c : Cursor) : Cursor := Cursor.took g { c with step := some j }

section

variable {s u : State} {x : Seat} {c : Cursor} {j : StepIndex} {g : StepFields}

theorem hopAtEntry_touches (c : Cursor) : c.hopAtEntry g = { c with hops := (c.hopAtEntry g).hops } := by
  unfold Cursor.hopAtEntry
  split
  · split <;> rfl
  · rfl

theorem entered_takeStep (h : Entered s x c u) : Entered s x ((c.fetched j g).hopAtEntry g) (takeStep x j g u) :=
  (h.read j).move (fun c => (c.fetched j g).hopAtEntry g) (by rw [hopAtEntry_touches]; exact ⟨rfl, rfl, rfl⟩)

/-- A step with a vent set, entered in an air system at rest, starts its vent and no more (spec/07 R141). -/
theorem enterStep_vent (n : Nat) (hf : s.fetch j = .inl g) (hv : g.vent ≠ 0) :
    enterStep (n + 1) x j s = beginVent x g.vent (takeStep x j g s) := by
  unfold enterStep
  rw [hf]
  exact if_pos hv

theorem enterStep_fill (n : Nat) (hf : s.fetch j = .inl g) (hv : g.vent = 0) (hg : g.fill ≠ 0) :
    enterStep (n + 1) x j s = beginFillWait x g.fill (takeStep x j g s) := by
  unfold enterStep
  rw [hf]
  dsimp only
  rw [if_neg (by simpa using hv), if_pos hg]

theorem effDwell_takeStep : ((takeStep x j g s).cursor x).effDwell = effectiveDwell g.dwell (s.cursor x).speed := by
  rw [(entered_takeStep (Entered.refl s x)).cursor, hopAtEntry_touches]
  rfl

theorem enterStep_dwell (n : Nat) (hf : s.fetch j = .inl g) (hv : g.vent = 0) (hg : g.fill = 0) (hd : g.dwell ≠ 0) :
    enterStep (n + 1) x j s = beginDwell x (takeStep x j g s) := by
  unfold enterStep
  rw [hf]
  dsimp only
  rw [if_neg (by simpa using hv), if_neg (by simpa using hg), if_pos]
  rw [effDwell_takeStep]
  exact fun e => hd ((effectiveDwell_eq_zero _ _).mp e)

theorem enterStep_missing (n : Nat) {code : FaultCode} (hf : s.fetch j = .inr code) :
    enterStep (n + 1) x j s = enterFault x code ((readRecord j s).modCursor x fun c => { c with step := some j }) := by
  unfold enterStep
  rw [hf]

/-- A step that takes no time and leads to itself is entered until the eighth entry in a row faults the cursor (spec/07 R140). -/
theorem enterStep_loop (n : Nat) {u : State} {c : Cursor} (h : Entered s x c u) (hf : u.fetch j = .inl g) (hv : g.vent = 0)
    (hg : g.fill = 0) (hd : g.dwell = 0) (ha : g.again = none) (hn : g.next = some j)
    (hk : ∀ q, c.counter = some q → q.owner ≠ j) (hlow : c.hops < 8) (bound : 8 ≤ c.hops + n) :
    ∃ v, enterStep n x j u = enterFault x .loop v ∧ Entered s x { c.fetched j g with hops := 8 } v := by
  induction n generalizing u c with
  | zero => omega
  | succ n ih =>
    have taken := entered_takeStep (j := j) (g := g) h
    have idle : effectiveDwell g.dwell c.speed = 0 := (effectiveDwell_eq_zero _ _).mpr hd
    have hopped : (c.fetched j g).hopAtEntry g = { c.fetched j g with hops := c.hops + 1 } := by
      unfold Cursor.hopAtEntry
      rw [if_pos ⟨hv, idle⟩, if_pos hg]
      rfl
    rw [hopped] at taken
    have short : ((takeStep x j g u).cursor x).effDwell = 0 := by rw [taken.cursor]; exact idle
    have follows : ({ c.fetched j g with hops := c.hops + 1 } : Cursor).advance = (.enter j, c.counter) := by
      show advanceFrom j g c.counter = _
      unfold advanceFrom
      rw [ha, hn]
      cases hc : c.counter with
      | none => rfl
      | some q => exact if_neg (hk q hc)
    have entry : enterStep (n + 1) x j u = if 8 ≤ c.hops + 1 then enterFault x .loop (takeStep x j g u) else
        enterStep n x j ((takeStep x j g u).modCursor x fun c => { c with counter := c.advance.2 }) := by
      rw [enterStep, hf]
      dsimp only
      rw [if_neg (by simpa using hv), if_neg (by simpa using hg), if_neg (by simpa using short), taken.cursor, follows]
    by_cases last : 8 ≤ c.hops + 1
    · refine ⟨takeStep x j g u, entry.trans (if_pos last), ?_⟩
      rw [show (8 : Nat) = c.hops + 1 by omega]
      exact taken
    · have next := taken.move (fun c => { c with counter := c.advance.2 }) ⟨rfl, rfl, rfl⟩
      dsimp only at next
      rw [follows] at next
      obtain ⟨v, ev, hv'⟩ := ih next (fetch_readRecord hf) hk (by show c.hops + 1 < 8; omega) (by show 8 ≤ c.hops + 1 + n; omega)
      exact ⟨v, entry.trans ((if_neg last).trans ev), hv'⟩

theorem hopAtEntry_timed (h : g.vent ≠ 0 ∨ c.effDwell ≠ 0) : c.hopAtEntry g = { c with hops := 0 } :=
  if_neg fun k => h.elim (fun e => e k.1) fun e => e k.2

theorem hopAtEntry_fill (hv : g.vent = 0) (hg : g.fill ≠ 0) :
    c.hopAtEntry g = { c with hops := if c.effDwell = 0 then c.hops else 0 } := by
  unfold Cursor.hopAtEntry
  by_cases h : c.effDwell = 0
  · rw [if_pos ⟨hv, h⟩, if_neg hg, if_pos h]
  · rw [if_neg fun k => h k.2, if_neg h]

theorem modCursor_congr {f h : Cursor → Cursor} (e : f (s.cursor x) = h (s.cursor x)) : s.modCursor x f = s.modCursor x h := by
  unfold State.modCursor
  rw [e]

/-- The part whose cursor has advanced, its repeat counter at `k`. -/
def State.advanced (s : State) (x : Seat) (k : Option RepeatCounter) : State :=
  s.modCursor x fun c => { c with counter := k, phaseMs := 0 }

theorem entered_advanced (s : State) (x : Seat) (k : Option RepeatCounter) :
    Entered s x { s.cursor x with counter := k, phaseMs := 0 } (s.advanced x k) :=
  (Entered.refl s x).move (fun c => { c with counter := k, phaseMs := 0 }) ⟨rfl, rfl, rfl⟩

variable {i : StepIndex} {f : StepFields} {k : Option RepeatCounter}

theorem endDwell_eq (hi : (s.cursor x).step = some i) (hf : (s.cursor x).copy = some f)
    (hd : (s.cursor x).state = .running ∧ (s.cursor x).phase = .dwell ∧ (s.cursor x).phaseMs = 0) {a : Advance}
    (ha : advanceFrom i f (s.cursor x).counter = (a, k)) : endDwell x s =
      match a with
      | .enter j => enterStep entryBound x j (s.advanced x k)
      | .finish => enterEnding x .ended (s.advanced x k)
      | .nest => enterFault x .nest (s.advanced x k) := by
  have advance : (s.cursor x).advance = (a, k) := by
    unfold Cursor.advance
    rw [hi, hf]
    exact ha
  have counted : (s.modCursor x fun c => { c with counter := c.advance.2, phaseMs := 0 }) = s.advanced x k :=
    modCursor_congr (by rw [advance])
  unfold endDwell
  rw [if_pos hd]
  unfold advanceCursor
  dsimp only
  rw [counted, advance]
  cases a <;> rfl

/-- A step that dwells alone is entered at once (spec/07 R144). -/
theorem enterStep_dwells (n : Nat) (hu : Entered s x c u) (hf : u.fetch j = .inl g) (hv : g.vent = 0) (hg : g.fill = 0)
    (hd : g.dwell ≠ 0) : Entered s x
      { c.fetched j g with hops := 0, phase := .dwell, phaseMs := 100 * effectiveDwell g.dwell c.speed } (enterStep (n + 1) x j u) := by
  have dwelt := (entered_takeStep (j := j) (g := g) hu).move (fun c => { c with phase := .dwell, phaseMs := 100 * c.effDwell })
    ⟨rfl, rfl, rfl⟩
  rw [hopAtEntry_timed (.inr fun z => hd ((effectiveDwell_eq_zero _ _).mp z))] at dwelt
  rw [enterStep_dwell n hf hv hg hd]
  exact dwelt

/-- A step with a vent set requests its vent (spec/07 R141). -/
theorem enterStep_requests (n : Nat) (hu : Entered s x c u) (hf : u.fetch j = .inl g) (hv : g.vent ≠ 0) :
    ∃ v, enterStep (n + 1) x j u = requestVent (.massage x) g.vent v ∧
      Entered s x { c.fetched j g with hops := 0, phase := .vent, phaseMs := 0 } v := by
  have vented := (entered_takeStep (j := j) (g := g) hu).move (fun c => { c with phase := .vent, phaseMs := 0 }) ⟨rfl, rfl, rfl⟩
  rw [hopAtEntry_timed (.inl hv)] at vented
  exact ⟨_, enterStep_vent n hf hv, vented⟩

/-- In an air system at rest it starts it. -/
theorem enterStep_vents (n : Nat) (hu : Entered s x c u) (hf : u.fetch j = .inl g) (hv : g.vent ≠ 0) (quiet : s.airQuiet = true) :
    ∃ v, enterStep (n + 1) x j u = startVent (.requester (.massage x)) g.vent v ∧
      Entered s x { c.fetched j g with hops := 0, phase := .vent, phaseMs := 0 } v := by
  obtain ⟨v, effect, vented⟩ := enterStep_requests n hu hf hv
  obtain ⟨queue, holder, -⟩ := (airQuiet_iff _).mp (vented.air.quiet quiet)
  exact ⟨v, effect.trans (requestVent_quiet _ hv queue holder), vented⟩

/-- A step without a vent set asks for its fill (spec/07 R142). -/
theorem enterStep_asks (n : Nat) (hu : Entered s x c u) (hf : u.fetch j = .inl g) (hv : g.vent = 0) (hg : g.fill ≠ 0) :
    ∃ v, enterStep (n + 1) x j u = requestFill (.massage x) g.fill (effectiveTarget g.target c.intensity) v ∧
      Entered s x { c.fetched j g with hops := if g.dwell = 0 then c.hops else 0, phase := .fillWait, phaseMs := 0 } v := by
  have entry := entered_takeStep (j := j) (g := g) hu
  have waits := entry.move (fun c => { c with phase := .fillWait, phaseMs := 0 }) ⟨rfl, rfl, rfl⟩
  have target : ((takeStep x j g u).cursor x).effTarget = effectiveTarget g.target c.intensity := by
    rw [entry.cursor, hopAtEntry_touches]
    rfl
  have asked := enterStep_fill n hf hv hg (x := x)
  unfold beginFillWait at asked
  rw [target] at asked
  rw [hopAtEntry_fill hv hg] at waits
  have idle : ((c.fetched j g).effDwell = 0) = (g.dwell = 0) := propext (effectiveDwell_eq_zero _ _)
  rw [ite_congr idle (fun _ => rfl) (fun _ => rfl)] at waits
  exact ⟨_, asked, waits⟩

/-- The entry that a step's request makes has the step's own target. -/
theorem requestEntry_scaled (r : Requester) (k : CellSet) (target intensity : Nat) :
    requestEntry r k (effectiveTarget target intensity) = ⟨r, k, effectiveTarget target intensity, false⟩ := by
  have limit : min (effectiveTarget target intensity) 400 = effectiveTarget target intensity :=
    Nat.min_eq_left (Nat.min_le_left 400 _)
  rw [requestEntry, limit]

/-- In a starved part at rest it waits alone. -/
theorem enterStep_waits (n : Nat) (hu : Entered s x c u) (hf : u.fetch j = .inl g) (hv : g.vent = 0) (hg : g.fill ≠ 0)
    (quiet : s.airQuiet = true) (starved : s.budget.cEff ≤ s.overhead) :
    ∃ v, enterStep (n + 1) x j u = passCore (v.modPneu fun p =>
        { p with queue := [⟨.massage x, g.fill, effectiveTarget g.target c.intensity, false⟩] }) ∧
      Entered s x { c.fetched j g with hops := if g.dwell = 0 then c.hops else 0, phase := .fillWait, phaseMs := 0 } v := by
  obtain ⟨v, effect, waits⟩ := enterStep_asks n hu hf hv hg
  obtain ⟨queue, holder, -⟩ := (airQuiet_iff _).mp (waits.air.quiet quiet)
  have alone := requestFill_starved (r := .massage x) (effectiveTarget g.target c.intensity) hg queue holder (by
    rw [waits.overhead.1, waits.overhead.2]
    exact starved)
  rw [requestEntry_scaled] at alone
  exact ⟨v, effect.trans alone, waits⟩

theorem Entered.taken {f : State → State} (h : s.awake) (hu : Entered s x c (f s)) : taken f s = .next (f s) :=
  taken_quiet f s h (hu.air.reports.trans h.2.1) (hu.air.releases.trans h.2.2)

end

/-! ## The advance spelled out -/

section

variable {i : StepIndex} {f : StepFields} {counter : Option RepeatCounter}

theorem advanceFrom_nest {q : Repetition} {k : RepeatCounter} (hq : f.again = some q) (hc : counter = some k) (ho : k.owner ≠ i) :
    advanceFrom i f counter = (.nest, some k) := by
  unfold advanceFrom
  rw [hq, hc]
  exact if_neg ho

/-- The step that an advance leads to, with the repeat counter it leaves. -/
def Advance.leads : Advance × Option RepeatCounter → Option (StepIndex × Option RepeatCounter)
  | (.enter j, k) => some (j, k)
  | _ => none

theorem advanceFrom_enter {j : StepIndex} {k : Option RepeatCounter} (h : Advance.leads (advanceFrom i f counter) = some (j, k)) :
    advanceFrom i f counter = (.enter j, k) := by
  generalize advanceFrom i f counter = way at h ⊢
  obtain ⟨a, l⟩ := way
  cases a with
  | enter j' =>
    cases h
    rfl
  | finish => cases h
  | nest => cases h

theorem leads_follow (n : Option StepIndex) (k : Option RepeatCounter) : Advance.leads (follow n, k) = n.map fun j => (j, k) := by
  cases n <;> rfl

/-- Without a next step and outside another's repeat an advance ends the program or repeats. -/
theorem advanceFrom_finish (hn : f.next = none) (hl : Advance.leads (advanceFrom i f counter) = none)
    (ho : ∀ q k, f.again = some q → counter = some k → k.owner = i) : ∃ k, advanceFrom i f counter = (.finish, k) := by
  cases e : advanceFrom i f counter with
  | mk a k =>
    cases a with
    | enter j =>
      rw [e] at hl
      cases hl
    | finish => exact ⟨k, rfl⟩
    | nest =>
      unfold advanceFrom at e
      rw [hn] at e
      cases ha : f.again with
      | none =>
        rw [ha] at e
        cases hc : counter with
        | none => rw [hc] at e; cases e
        | some k' =>
          rw [hc] at e
          dsimp only at e
          split at e <;> cases e
      | some q =>
        rw [ha] at e
        cases hc : counter with
        | none =>
          rw [hc] at e
          dsimp only at e
          split at e <;> cases e
        | some k' =>
          rw [hc] at e
          dsimp only at e
          rw [if_pos (ho q k' ha hc)] at e
          split at e <;> cases e

end

/-- Settles O49: the advance by next, by repeat and to the end, the step entered, the faults, and the program timer. -/
theorem dwellAndProgramTimersAct : Obligations.DwellAndProgramTimersAct := by
  refine ⟨fun x s h => ?_, fun x s h => ⟨fun hn => taken_still h (if_neg fun k => hn.elim (fun e => e k.1) fun e => e k.2), fun hr hz => ?_⟩⟩
  · intro c dwells leads faults
    have faulted (code : FaultCode) (was w : Cursor) (u : State) (hu : Entered s x w u) (e : endDwell x s = enterFault x code u)
        (same : w.faulted code = was.faulted code) (step : w.step = was.step) : faults code was := by
      obtain ⟨t, ht, bystander, cursor, quiet⟩ := taken_faults code h hu e
      refine ⟨t, ht, bystander, cursor.trans same, ?_⟩
      unfold Cursor.stepOrZero at quiet
      rw [step] at quiet
      exact quiet
    have leads_eq (i : StepIndex) (f : StepFields) : leads i f = Advance.leads (advanceFrom i f c.counter) := by
      dsimp only [leads]
      unfold advanceFrom
      cases f.again with
      | none =>
        cases c.counter with
        | none => exact (leads_follow f.next none).symm
        | some k =>
          dsimp only
          by_cases own : k.owner = i
          · rw [if_pos own, if_pos own]
            exact (leads_follow f.next none).symm
          · rw [if_neg own, if_neg own]
            exact (leads_follow f.next (some k)).symm
      | some q =>
        cases c.counter with
        | none =>
          dsimp only
          by_cases once : q.count ≤ 1
          · rw [if_neg (by omega), if_pos once]
            exact (leads_follow f.next none).symm
          · rw [if_pos (by omega), if_neg once]
            rfl
        | some k =>
          dsimp only
          by_cases own : k.owner = i
          · rw [if_neg (fun e => e own), if_pos own]
            by_cases last : k.value ≤ 1
            · rw [if_neg (by omega), if_pos last]
              exact (leads_follow f.next none).symm
            · rw [if_pos (by omega), if_neg last]
              rfl
          · rw [if_pos own, if_neg own]
            rfl
    refine ⟨fun hn => taken_still h (if_neg hn), fun i f hi hf hd => ⟨fun q k hq hk ho => ?_, fun hn hl ho => ?_, fun j k hl => ?_⟩⟩
    · exact faulted .nest c _ _ (entered_advanced s x (some k)) (endDwell_eq hi hf hd (advanceFrom_nest hq hk ho)) rfl rfl
    · rw [leads_eq] at hl
      obtain ⟨k, finish⟩ := advanceFrom_finish hn hl ho
      obtain ⟨t, ht, cursor, same⟩ := taken_ends .ended h (entered_advanced s x k) (endDwell_eq hi hf hd finish)
      exact ⟨t, ht, by rw [cursor]; rfl, by rw [cursor]; rfl, by rw [cursor]; rfl, same⟩
    · rw [leads_eq] at hl
      have advance := advanceFrom_enter hl
      have enters : endDwell x s = enterStep (8 + 1) x j (s.advanced x k) := endDwell_eq hi hf hd advance
      have moved := entered_advanced s x k
      intro inRam stored
      refine ⟨fun hr hc hw => ?_, fun hr hw => ?_, fun g hg => ?_⟩
      · exact faulted .blank _ _ _ ((moved.read j).move (fun c => { c with step := some j }) ⟨rfl, rfl, rfl⟩)
          (enters.trans (enterStep_missing 8 (s := s.advanced x k) (fetch_blank (s := s.advanced x k) hr hc hw))) rfl rfl
      · exact faulted .store _ _ _ ((moved.read j).move (fun c => { c with step := some j }) ⟨rfl, rfl, rfl⟩)
          (enters.trans (enterStep_missing 8 (s := s.advanced x k) (fetch_uncorrectable (s := s.advanced x k) hr hw))) rfl rfl
      · intro dwell entered
        have fetched : (s.advanced x k).fetch j = .inl g := fetch_found (s := s.advanced x k) hg
        have dwell_eq : effectiveDwell g.dwell c.speed = dwell := effectiveDwell_eq _ _
        have plain : ({ Cursor.fetched j g { s.cursor x with counter := k, phaseMs := 0 } with hops := 0 } : Cursor) = entered := by
          show _ = ({ c with step := some j, copy := some g, counter := k, hops := 0, phaseMs := 0, effDwell := dwell
                             effTarget := min 400 (g.target * (50 + 10 * c.intensity) / 100) } : Cursor)
          rw [← dwell_eq]
          rfl
        refine ⟨fun hv hf' hw => ?_, fun hv quiet => ?_, fun hv hf' quiet starved => ?_, fun hv hf' hw ha hn hops hk => ?_⟩
        · have dwelt := enterStep_dwells 8 moved fetched hv hf' hw
          rw [← enters] at dwelt
          have taken := dwelt.taken h
          have cursor : (endDwell x s).cursor x = { entered with phaseMs := 100 * dwell } := by
            rw [dwelt.cursor, ← plain, ← dwell_eq, ← show c.phase = .dwell from hd.2.1]
            rfl
          have effect : endDwell x s = beginDwell x (takeStep x j g (s.advanced x k)) :=
            enters.trans (enterStep_dwell 8 fetched hv hf' hw)
          refine ⟨fun clean => ?_, fun hr weak => ⟨endDwell x s, taken, cursor, fun _ => ?_, ?_, dwelt.same⟩⟩
          · have still : readRecord j (s.advanced x k) = s.advanced x k := readRecord_clean clean
            have alone : ∃ f, endDwell x s = s.modCursor x f := by
              rw [effect]
              unfold beginDwell takeStep
              rw [still]
              unfold State.advanced
              rw [modCursor_modCursor, modCursor_modCursor]
              exact ⟨_, rfl⟩
            obtain ⟨f', hf''⟩ := alone
            have value : f' (s.cursor x) = { entered with phaseMs := 100 * dwell } := by
              rw [← cursor, hf'', State.cursor_modCursor]
            rw [show exec (.dwellEnd x) s = .next (endDwell x s) from taken, hf'']
            exact congrArg Host.Outcome.next (modCursor_congr value)
          · have content : ((s.advanced x k).ramRecord j).content = some g := (show stored.weight ≤ 1 ∧ stored.content = some g by
              rw [if_pos hr] at hg; exact hg).2
            rw [effect]
            show (readRecord j (s.advanced x k)).ramRecord j = _
            rw [readRecord_corrected (s := s.advanced x k) hr weak]
            exact ramRecord_corrected content
          · rw [effect]
            show (readRecord j (s.advanced x k)).log.count = _
            rw [readRecord_corrected (s := s.advanced x k) hr weak, correctRecord_ram.2]
            rfl
        · obtain ⟨v, effect, vented⟩ := enterStep_vents 8 moved fetched hv quiet
          rw [← enters] at effect
          refine ⟨endDwell x s, taken_quiet (endDwell x) s h ?_ ?_, ?_, ?_, ?_⟩
          · rw [effect]
            exact vented.air.reports.trans h.2.1
          · rw [effect]
            exact vented.air.releases.trans h.2.2
          · rw [effect, cursor_startVent, vented.cursor, ← plain]
            rfl
          · rw [effect, ← vented.ventWindow]
            exact startVent_mem _ _ hv
          · rw [effect]
            exact (bystander_modPneu _ _ rfl).trans vented.same
        · obtain ⟨v, effect, waits⟩ := enterStep_waits 8 moved fetched hv hf' quiet starved
          rw [← enters] at effect
          refine ⟨endDwell x s, taken_quiet (endDwell x) s h ?_ ?_, ?_, ?_, ?_⟩
          · rw [effect]
            exact passCore_reports.1.trans (waits.air.reports.trans h.2.1)
          · rw [effect]
            exact passCore_reports.2.trans (waits.air.releases.trans h.2.2)
          · rw [effect, passCore_cursor]
            refine waits.cursor.trans ?_
            rw [← plain]
            rfl
          · rw [effect, passCore_pneu, ← waits.air.pneu]
            rfl
          · rw [effect]
            exact (Stirs.pass (P := fun _ => True) (.same _)).bystander.trans ((bystander_modPneu _ _ rfl).trans waits.same)
        · obtain ⟨v, ev, hv'⟩ := enterStep_loop (8 + 1) moved fetched hv hf' hw ha hn hk (by show c.hops < 8; omega)
            (by show 8 ≤ c.hops + (8 + 1); omega)
          exact faulted .loop _ _ _ hv' (enters.trans ev) (congrArg (fun e => ({ e with hops := 8 } : Cursor).faulted .loop) plain) rfl
  · exact taken_ends .expired h (Entered.refl s x) (if_pos ⟨hr, hz⟩)

end Sys2Proof.Machine
end
section
/-! PROOFS. START PROGRAM (O18): its refusals, what it frees, and the first step's entry. -/
namespace Sys2Proof.Machine

/-! ## What a start frees (spec/07 R137 step 1) -/

/-- The part with the old program abandoned. -/
def State.abandoned (s : State) (x : Seat) : State := cancelVent (.massage x) (withdrawCursor x s)

/-- The part with the new program's record, before its first step. -/
def State.begun (s : State) (m : Master) (x : Seat) (program minutes : Nat) : State :=
  markCursor m x ((s.abandoned x).modCursor x (Cursor.started program minutes))

section

variable {s : State} {m : Master} {x : Seat} {program minutes : Nat}

theorem stirs_abandoned {P : Seat → Prop} : Stirs P s (s.abandoned x) := stirs_cancelVent (stirs_withdrawCursor (.same s) x) _

theorem abandoned_rests (h : s.unreported (.massage x)) :
    (s.abandoned x).rests x (s.cursor x) [] ((s.cursor x).fillPhase = true ∧ s.queueLaws) := by
  have cancelled := rests_cancelVent (s := withdrawCursor x s) (x := x) (withdrawCursor_unreported h)
    fun f : (s.cursor x).fillPhase = true ∧ s.queueLaws => withdrawCursor_absent f.2 f.1
  rw [withdrawCursor_cursor] at cancelled
  exact cancelled

/-- The record of the new program. -/
def Cursor.begun (m : Master) (program minutes : Nat) (c : Cursor) : Cursor := { c.started program minutes with origin := m.origin }

theorem begun_rests (h : s.unreported (.massage x)) : (s.begun m x program minutes).rests x ((s.cursor x).begun m program minutes) []
    ((s.cursor x).fillPhase = true ∧ s.queueLaws) := rests_markCursor (Cursor.started program minutes) (abandoned_rests h)

theorem bystander_begun : (s.begun m x program minutes).bystander = (s.modCursor x fun c => { c with origin := m.origin }).bystander := by
  refine (bystander_markCursor m x _).trans (bystander_modCursor_congr x ?_ fun c d e => ?_)
  · exact (bystander_modCursor _ x _ ⟨rfl, rfl, rfl⟩).trans (stirs_abandoned (P := fun _ => True)).bystander
  · exact congrArg (fun k : Cursor => { k with origin := m.origin }) e

/-- The store is not touched as the air system frees what a program held. -/
theorem ram_arb (r : List (Nat × RamRecord)) : ArbKeep (fun s => s.ram = r) where
  pass s h := by
    rw [passCore_touches]
    exact h
  releases _ _ _ h := h
  tune _ _ _ _ _ h := h
  grant _ _ _ _ h := h
  ended g how s _ _ h := by
    refine Eq.trans ?_ h
    unfold endFill
    dsimp only
    split <;> rfl
  requeued _ _ _ h := h

theorem ram_ask (r : List (Nat × RamRecord)) (q : Requester) : MayAsk (fun s => s.ram = r) q :=
  ⟨fun _ _ _ _ _ h => h, fun _ _ _ _ h => h, fun _ _ _ _ h => h, fun _ h => h, fun _ h => h⟩

theorem ram_begun : (s.begun m x program minutes).ram = s.ram := by
  have freed : (s.abandoned x).ram = s.ram := by
    unfold State.abandoned
    refine (ram_arb s.ram).cancelVent (ram_ask _ _) ?_
    unfold withdrawCursor
    split
    · exact (ram_arb s.ram).withdraw (ram_ask _ _).fills rfl
    · rfl
  unfold State.begun
  rw [markCursor_touches]
  exact freed

theorem fetch_begun (i : StepIndex) : (s.begun m x program minutes).fetch i = s.fetch i := by
  have record : (s.begun m x program minutes).storeAnswer i = s.storeAnswer i := by
    unfold State.storeAnswer State.ramRecord
    rw [ram_begun]
  unfold State.fetch
  rw [record]

/-- The operations of the other owners. -/
def Pneumatic.others (p : Pneumatic) (x : Seat) : List VentOp := p.vents.filter fun v => v.owner != .requester (.massage x)

theorem dropVent_absent {o : VentOwner} {l : List VentOp} (h : (l.any fun v => v.owner == o) = false) : dropVent o l = l := by
  refine List.filter_eq_self.mpr fun v hv => ?_
  have own := List.any_eq_false.mp h v hv
  simpa using own

/-- Where the freed air can grant nothing, a cancelled vent leaves the other operations and nothing else changes. -/
theorem cancelVent_still (h : s.pneu.queue = [] ∨ s.pneu.holder ≠ none) :
    cancelVent (.massage x) s = s.modPneu fun p => { p with vents := s.pneu.others x } := by
  unfold cancelVent
  split
  · exact h.elim (fun e => select_empty e) fun e => select_held e
  · rename_i none_
    have same : s.pneu.others x = s.pneu.vents := dropVent_absent (by simpa [Pneumatic.vents?] using none_)
    rw [same]
    rfl

/-- In an air system at rest, or behind another's grant, the old program holds nothing but its vent. -/
theorem abandoned_still (h : s.pneu.queue = [] ∧ s.pneu.holder = none ∨ (∃ g, s.pneu.holder = some g ∧ g.entry.requester ≠ .massage x) ∧
    ∀ e ∈ s.pneu.queue, e.requester ≠ .massage x) : s.abandoned x = s.modPneu fun p => { p with vents := s.pneu.others x } := by
  have stays : withdrawCursor x s = s := by
    rcases h with ⟨queue, holder⟩ | ⟨⟨g, hg, other⟩, queue⟩
    · exact withdrawCursor_quiet x queue holder
    · have unqueued : s.isQueued (.massage x) = false := List.any_eq_false.mpr fun e he k => queue e he (by simpa using k)
      have unheld : s.heldBy (.massage x) = none := by
        unfold State.heldBy
        rw [hg]
        exact if_neg other
      unfold withdrawCursor withdraw
      rw [unqueued, unheld]
      split <;> rfl
  unfold State.abandoned
  rw [stays]
  exact cancelVent_still (h.imp And.left fun k => by rw [k.1.choose_spec.1]; exact fun e => nomatch e)

theorem pneu_begun : (s.begun m x program minutes).pneu = (s.abandoned x).pneu ∧
    (s.begun m x program minutes).reports = (s.abandoned x).reports ∧
    (s.begun m x program minutes).releases = (s.abandoned x).releases := by
  unfold State.begun
  generalize s.abandoned x = w
  rw [markCursor_touches]
  exact ⟨rfl, rfl, rfl⟩

end

/-- A part that has entered a step beside a resting cursor's air. -/
theorem Entered.rests {s u : State} {x : Seat} {c d : Cursor} {V : List VentOp} {b : Prop} (h : Entered s x c u)
    (hs : s.rests x d V b) : u.rests x c V b where
  cursor := h.cursor
  ops := by
    rw [h.air.pneu]
    exact hs.ops
  unreported := by
    unfold State.unreported
    rw [h.air.reports]
    exact hs.unreported
  absent hb := by
    unfold State.absent
    rw [h.air.pneu]
    exact hs.absent hb

/-! ## START PROGRAM (spec/07 R136, R137) -/

theorem takenMinutes_eq (carried dflt : Nat) :
    takenMinutes carried dflt = (if carried = 0 then dflt else min 60 carried, if carried ≤ 60 then .ok else .clamped) := by
  unfold takenMinutes
  by_cases hz : carried = 0
  · subst hz
    rfl
  · rw [if_neg hz, if_neg hz]
    split
    · rw [Nat.min_eq_right ‹_›]
    · rw [Nat.min_eq_left (by omega)]

theorem takeStartProgram_eq {m : Master} {x : Seat} {u : State} (program minutes : Byte) (hw : u.mayWrite m x.region = true) :
    takeStartProgram m (byteOf (seatCode x)) program minutes u = recordResult m 0x13 (some x) (startAt m program minutes x u) := by
  unfold takeStartProgram
  rw [seatOfCode_seatCode, atCursor_some _ _ (seatOfCode_seatCode x)]
  exact congrArg (recordResult _ _ _) (if_pos hw)

/-- An accepted START PROGRAM. -/
theorem startAt_accepted {m : Master} {x : Seat} {program minutes : Byte} {s : State} (hp : program.toNat ≤ 15)
    (hv : (s.dirEntry program.toNat).valid = true) (ha : s.active x = true) (hs : (s.cursor x).state ≠ .ending) :
    startAt m program minutes x s =
      (enterStep (8 + 1) x (s.dirEntry program.toNat).first (s.begun m x program.toNat
        (if minutes.toNat = 0 then (s.dirEntry program.toNat).minutes else min 60 minutes.toNat)),
        if minutes.toNat ≤ 60 then .ok else .clamped) := by
  unfold startAt
  dsimp only
  rw [if_neg (by omega), if_neg (by rw [hv]; decide), if_neg (by rw [ha]; decide), if_neg hs, takenMinutes_eq]
  rfl

/-- What an accepted start has before its first step: the part `w` of the new program. -/
structure Begun (m : Master) (x : Seat) (program minutes : Byte) (s w : State) : Prop where
  effect : ∀ i, i = (s.dirEntry program.toNat).first → takeStartProgram m (byteOf (seatCode x)) program minutes { s with bus := .idle } =
    recordResult m 0x13 (some x) (enterStep (8 + 1) x i w, if minutes.toNat ≤ 60 then .ok else .clamped)
  same : w.bystander = (State.modCursor { s with bus := .idle } x fun c => { c with origin := m.origin }).bystander
  told : s.told w .changed x (.changed .cursor) (some m)
  rests : w.rests x ((s.cursor x).begun m program.toNat
      (if minutes.toNat = 0 then (s.dirEntry program.toNat).minutes else min 60 minutes.toNat)) []
    ((s.cursor x).fillPhase = true ∧ s.queueLaws)
  fetch : ∀ i, w.fetch i = s.fetch i
  still : (s.pneu.queue = [] ∧ s.pneu.holder = none ∨ (∃ g, s.pneu.holder = some g ∧ g.entry.requester ≠ .massage x) ∧
    ∀ e ∈ s.pneu.queue, e.requester ≠ .massage x) → AirAlike (s.modPneu fun p => { p with vents := s.pneu.others x }) w

section

variable {m : Master} {x : Seat} {program minutes : Byte} {s w : State}

theorem begun_of_accepted (h : s.onBus) (hw : s.mayWrite m x.region = true) (hp : program.toNat ≤ 15)
    (hv : (s.dirEntry program.toNat).valid = true) (ha : s.active x = true) (hs : (s.cursor x).state ≠ .ending) :
    ∃ w, Begun m x program minutes s w := by
  refine ⟨State.begun { s with bus := .idle } m x program.toNat
    (if minutes.toNat = 0 then (s.dirEntry program.toNat).minutes else min 60 minutes.toNat), ?_, bystander_begun, ?_, ?_, ?_, ?_⟩
  · intro i hi
    rw [takeStartProgram_eq program minutes (u := { s with bus := .idle }) hw,
      startAt_accepted (s := { s with bus := .idle }) hp hv ha hs, hi]
    rfl
  · refine markCursor_told m x _ (v := s) ?_
    have freed : (State.abandoned { s with bus := .idle } x).access = s.access :=
      (access_of_bystander (stirs_abandoned (s := { s with bus := .idle }) (x := x) (P := fun _ => True)).bystander).trans rfl
    exact freed
  · exact begun_rests (s := { s with bus := .idle }) (unreported_of_awake h.1.2.1)
  · exact fun i => fetch_begun (s := { s with bus := .idle }) i
  · intro calm
    obtain ⟨pneu, reports, releases⟩ := pneu_begun (s := { s with bus := .idle }) (m := m) (x := x) (program := program.toNat)
      (minutes := if minutes.toNat = 0 then (s.dirEntry program.toNat).minutes else min 60 minutes.toNat)
    have freed := abandoned_still (s := { s with bus := .idle }) calm
    rw [freed] at pneu reports releases
    exact ⟨pneu, reports, releases⟩

namespace Begun

/-- A law that the first step's entry meets and the reports keep. -/
theorem takes (b : Begun m x program minutes s w) (h : s.onBus) {ok : Requester → Prop} {P : State → Prop} (K : SettleKeep ok P)
    (results : ∀ s r, P s → P (State.withResults s r)) (hp : P (enterStep (8 + 1) x (s.dirEntry program.toNat).first w)) :
    ∃ t, exec (.startProgram m (byteOf (seatCode x)) program minutes) s = .next t ∧ P t ∧
      Followed (w.withResults (s.results.set m ⟨if minutes.toNat ≤ 60 then .ok else .clamped, some 0x13, some x⟩)) t :=
  K.taken_write_law results h (b.effect _ rfl) (stirs_enterStep (.same w) _ x trivial _)
    ((results_of_bystander b.same).trans (by cases x <;> rfl)) hp

/-- A first step whose entry makes no report. -/
theorem exactly (b : Begun m x program minutes s w) (h : s.onBus) {v : State}
    (hv : enterStep (8 + 1) x (s.dirEntry program.toNat).first w = v) (hr : v.reports = s.reports) (hl : v.releases = s.releases) :
    exec (.startProgram m (byteOf (seatCode x)) program minutes) s =
      .next (recordResult m 0x13 (some x) (v, if minutes.toNat ≤ 60 then .ok else .clamped)) := by
  subst hv
  exact taken_write_exact h (b.effect _ rfl) hr hl

theorem entered (b : Begun m x program minutes s w) : Entered w x ((s.cursor x).begun m program.toNat
    (if minutes.toNat = 0 then (s.dirEntry program.toNat).minutes else min 60 minutes.toNat)) w :=
  ⟨⟨rfl, rfl, rfl⟩, rfl, b.rests.cursor⟩

theorem window (b : Begun m x program minutes s w) : w.ventWindow = s.ventWindow :=
  (param_of_bystander b.same 49).trans rfl

end Begun

end

theorem ite_self_zero {p : Prop} [Decidable p] {n : Nat} (h : n = 0) : (if p then n else 0) = 0 := by
  rw [h, ite_self]

/-- The record of a program that has fetched its first step. -/
theorem fetched_begun (m : Master) (program minutes : Nat) (c : Cursor) (i : StepIndex) (f : StepFields) (phase : Phase) (hops ms : Nat) :
    ({ (c.begun m program minutes).fetched i f with hops := hops, phase := phase, phaseMs := ms } : Cursor) =
      { state := .running, phase := phase, program := some program, step := some i, copy := some f
        effTarget := min 400 (f.target * (50 + 10 * c.intensity) / 100)
        effDwell := if f.dwell = 0 then 0 else max 1 (f.dwell * speedPercent c.speed / 100)
        counter := none, hops := hops, seconds := 60 * minutes, secondMs := 0, phaseMs := ms
        intensity := c.intensity, speed := c.speed, origin := m.origin, fault := .none, cause := .none } := by
  rw [← effectiveDwell_eq]
  rfl

/-- Settles O18: the refusals in order, and the accepted start with each kind of first step. -/
theorem startProgramStarts : Obligations.StartProgramStarts := by
  intro m x program minutes s h hw cmd e refused code span
  have refusal (r : ResultCode) (own : startAt m program minutes x { s with bus := .idle } = refuse r { s with bus := .idle }) :
      refused r := taken_refused h (by rw [takeStartProgram_eq program minutes (u := { s with bus := .idle }) hw, own])
  refine ⟨fun hp => refusal _ (if_pos hp), fun hp hv => ?_, fun hp hv ha => ?_, fun hp hv ha hs => ?_, fun hp hv ha hs => ?_⟩
  · refine refusal _ ((if_neg (by omega)).trans (if_pos hv))
  · refine refusal _ ((if_neg (by omega)).trans ((if_neg ?_).trans (if_pos ha)))
    rw [show (State.dirEntry { s with bus := .idle } program.toNat).valid = true from hv]
    decide
  · refine refusal _ ((if_neg (by omega)).trans ((if_neg ?_).trans ((if_neg ?_).trans (if_pos hs))))
    · rw [show (State.dirEntry { s with bus := .idle } program.toNat).valid = true from hv]
      decide
    · rw [show State.active { s with bus := .idle } x = true from ha]
      decide
  · obtain ⟨w, begun⟩ := begun_of_accepted (minutes := minutes) h hw hp hv ha hs
    have absent {t : State} {c : Cursor} {V : List VentOp} (rests : t.rests x c V ((s.cursor x).fillPhase = true ∧ s.queueLaws)) :
        (s.cursor x).state = .running → (s.cursor x).phase = .fillWait ∨ (s.cursor x).phase = .filling → s.queueLaws →
        (∀ q ∈ t.pneu.queue, q.requester ≠ .massage x) ∧ ∀ h, t.pneu.holder = some h → h.entry.requester ≠ .massage x :=
      fun hr hp hq => rests.absent ⟨fillPhase_of hr hp, hq⟩
    refine ⟨?_, ?_⟩
    · obtain ⟨t, ht, -, followed⟩ := begun.takes h true_keep (fun _ _ k => k) trivial
      refine ⟨t, ht, ?_, followed_told followed rfl begun.told, followed.bystander.trans ?_⟩
      · exact (results_of_bystander followed.bystander).trans rfl
      · refine (congrArg (State.withResults · (s.results.set m ⟨code, some 0x13, some x⟩)) begun.same).trans ?_
        cases x <;> rfl
    · intro c record others released
      refine ⟨fun none_ => ?_, fun f hf => ?_⟩
      · have high : 64 ≤ e.first.toNat := by
          refine Classical.byContradiction fun low => ?_
          have listed : record = some (romRecord e.first.toNat) := if_pos (by omega)
          rw [listed] at none_
          cases none_
        have missing : s.fetch e.first = .inr (if (s.ramRecord e.first).weight ≤ 1 then .blank else .store) := by
          by_cases weak : (s.ramRecord e.first).weight ≤ 1
          · have content : record = (s.ramRecord e.first).content := (if_neg (by omega)).trans (if_pos weak)
            rw [if_pos weak]
            exact fetch_blank high (content.symm.trans none_) weak
          · rw [if_neg weak]
            exact fetch_uncorrectable high (by omega)
        generalize (if (s.ramRecord e.first).weight ≤ 1 then FaultCode.blank else .store) = fault at missing ⊢
        have entry := enterStep_missing 8 (x := x) ((begun.fetch e.first).trans missing)
        have entered := (begun.entered.read e.first).move (fun c => { c with step := some e.first }) ⟨rfl, rfl, rfl⟩
        generalize (readRecord e.first w).modCursor x (fun c => { c with step := some e.first }) = u at entry entered
        have rest := entered.rests begun.rests
        have faulted := rests_enterFault fault rest.unreported (x := x) (b := (s.cursor x).fillPhase = true ∧ s.queueLaws) fun hb => by
          rw [withdrawCursor_idle (by rw [rest.cursor]; rfl)]
          exact rest.absent hb
        rw [← entry, rest.cursor, entered.ventWindow, begun.window] at faulted
        obtain ⟨t, ht, rests, -⟩ := begun.takes h (rests_keep (by rfl)) (fun _ r => rests_withResults r) faulted
        have code : (t.cursor x).fault = fault := by
          rw [rests.cursor]
          rfl
        refine ⟨t, ht, by rw [rests.cursor]; rfl, by rw [rests.cursor]; rfl, code, rests.vents, fun quiet => ?_, absent rests⟩
        obtain ⟨queue, holder, reports⟩ := (airQuiet_iff s).mp quiet
        have air := (begun.still (.inl ⟨queue, holder⟩)).trans entered.air
        have effect := entry.trans (enterFault_quiet fault ((congrArg Pneumatic.queue air.pneu).trans queue)
          ((congrArg Pneumatic.holder air.pneu).trans holder))
        have step : (u.cursor x).stepOrZero = e.first := by
          rw [entered.cursor]
          rfl
        rw [step] at effect
        have exactly := begun.exactly h effect (by rw [raiseSeat_touches]; exact air.reports)
          (by rw [raiseSeat_touches]; exact air.releases)
        rw [code]
        cases Host.Outcome.next.inj (ht.symm.trans exactly)
        intro k hr he
        have rights : u.access = s.access := (access_of_bystander (entered.same.trans begun.same)).trans (by cases x <;> rfl)
        have reached := raiseSeat_reaches (startVent (.requester (.massage x)) massageCells (u.modCursor x (Cursor.faulted fault)))
          .airFault x (.massageFault fault e.first) none k (by
            unfold State.mayRead at hr ⊢
            show rightReads ((u.access.get k).get x.region) = true
            rw [rights]
            exact hr) he
        exact reached
      · intro dwell fresh entry
        have found : w.fetch e.first = .inl f := (begun.fetch e.first).trans (fetch_found (by
          by_cases high : 64 ≤ e.first.toNat
          · rw [if_pos high]
            have listed : record = if (s.ramRecord e.first).weight ≤ 1 then (s.ramRecord e.first).content else none :=
              if_neg (by omega)
            rw [listed] at hf
            split at hf
            · exact ⟨‹_›, hf⟩
            · cases hf
          · rw [if_neg high]
            have listed : record = some (romRecord e.first.toNat) := if_pos (by omega)
            rw [listed] at hf
            exact (Option.some.inj hf).symm))
        refine ⟨fun hv hf' hd => ?_, fun hv => ?_, fun hv hf' => ⟨fun g hg hr hn hq => ?_, fun quiet starved => ?_⟩⟩
        · have entered := enterStep_dwells 8 begun.entered found hv hf' (Nat.ne_of_gt hd)
          rw [effectiveDwell_eq] at entered
          obtain ⟨t, ht, rests, -⟩ := begun.takes h (rests_keep (by rfl)) (fun _ r => rests_withResults r)
            (entered.rests begun.rests)
          exact ⟨t, ht, rests.cursor.trans (fetched_begun _ _ _ _ _ _ _ _ _), rests.no_vent, absent rests⟩
        · obtain ⟨v, effect, entered⟩ := enterStep_requests 8 begun.entered found hv
          have rest := entered.rests begun.rests
          have vented := rests_requestVent hv rest.unreported rest.absent
          rw [← effect, entered.ventWindow, begun.window, rest.cursor] at vented
          obtain ⟨t, ht, rests, -⟩ := begun.takes h (rests_keep (by rfl)) (fun _ r => rests_withResults r) vented
          exact ⟨t, ht, rests.cursor.trans (fetched_begun _ _ _ _ _ _ _ _ _), rests.vents, absent rests⟩
        · obtain ⟨v, effect, entered⟩ := enterStep_asks 8 begun.entered found hv hf'
          have air := (begun.still (.inr ⟨⟨g, hg, hr⟩, hq⟩)).trans entered.air
          rw [ite_self_zero (by rfl)] at entered
          have behind := requestFill_behind (s := v) (r := .massage x) (effectiveTarget f.target c.intensity) hf'
            ((congrArg Pneumatic.holder air.pneu).trans hg) hr (by rw [air.pneu]; exact hn) (by rw [air.pneu]; exact hq)
          rw [requestEntry_scaled] at behind
          refine ⟨_, begun.exactly h (effect.trans behind) air.reports air.releases, ?_, ?_⟩
          · exact entered.cursor.trans (fetched_begun _ _ _ _ _ _ _ _ _)
          · show ({ v.pneu with queue := v.pneu.queue ++ [entry] } : Pneumatic) = _
            rw [air.pneu]
            rfl
        · obtain ⟨queue, holder, reports⟩ := (airQuiet_iff s).mp quiet
          obtain ⟨v, effect, entered⟩ := enterStep_asks 8 begun.entered found hv hf'
          have air := (begun.still (.inl ⟨queue, holder⟩)).trans entered.air
          rw [ite_self_zero (by rfl)] at entered
          have alone := requestFill_starved (s := v) (r := .massage x) (effectiveTarget f.target c.intensity) hf'
            ((congrArg Pneumatic.queue air.pneu).trans queue) ((congrArg Pneumatic.holder air.pneu).trans holder) (by
              have ceiling : v.budget.cEff = s.budget.cEff := (cEff_of_bystander (entered.same.trans begun.same)).trans rfl
              rw [entered.overhead.1, ceiling]
              exact Nat.le_trans starved (Nat.le_of_eq ((param_of_bystander begun.same 45).trans rfl).symm))
          rw [requestEntry_scaled] at alone
          refine ⟨_, begun.exactly h (effect.trans alone) (passCore_reports.1.trans air.reports) (passCore_reports.2.trans air.releases),
            ?_, ?_⟩
          · exact (passCore_cursor _ x).trans (entered.cursor.trans (fetched_begun _ _ _ _ _ _ _ _ _))
          · refine (passCore_pneu (v.modPneu fun p => { p with queue := [entry] })).trans ?_
            show ({ v.pneu with queue := [entry] } : Pneumatic) = _
            rw [air.pneu]
            rfl

end Sys2Proof.Machine
end
section
/-! PROOFS. One report among those of a command: the first that a requester takes (for O43 to O46), and the end of a vent (O46). -/
namespace Sys2Proof.Machine

/-! ## The reports up to one of them -/

theorem MoveKeep.takeReport {ok : Requester → Prop} {P : State → Prop} (K : MoveKeep ok P)
    (hu : ∀ x s, P s → P (countUnderfill x s)) {s : State} (r : Report) (hr : ok r.requester) (h : P s) : P (takeReport r s) := by
  cases r with
  | granted who => cases who with
    | massage x => exact K.cursorGranted hr h
    | support x => exact K.supportGranted hr h
  | ended who how => cases who with
    | massage x => exact K.cursorOutcome hr how (fun _ _ => hu x s h) h
    | support x => exact K.supportOutcome hr how h
  | ventComplete who => cases who with
    | massage x => exact K.cursorVentComplete hr h
    | support x => exact K.supportVentComplete hr h

/-- A law beside the first of the open reports. -/
theorem MoveKeep.opens {ok : Requester → Prop} {P : State → Prop} (K : MoveKeep ok P) (l : List Report) :
    MoveKeep ok fun s => P s ∧ s.opens l where
  toArbKeep := K.toArbKeep.and (opens_keep l).toArbKeep
  ask r hr :=
    ⟨fun c g s hc hq h => ⟨(K.ask r hr).replace c g s hc hq h.1, h.2⟩, fun c g s hc h => ⟨(K.ask r hr).rehold c g s hc h.1, h.2⟩,
      fun c g s hc h => ⟨(K.ask r hr).append c g s hc h.1, h.2⟩, fun s h => ⟨(K.ask r hr).remove s h.1, h.2⟩,
      fun s h => ⟨(K.ask r hr).unvent s h.1, h.2⟩⟩
  vent r c s hr hc h := ⟨K.vent r c s hr hc h.1, h.2⟩
  cursor x g s hx h := ⟨K.cursor x g s hx h.1, h.2⟩
  regulator x g s hx hg h := ⟨K.regulator x g s hx hg h.1, h.2⟩
  fault x c s hx h := ⟨K.fault x c s hx h.1, h.2⟩
  airFault r d s hr h := ⟨K.airFault r d s hr h.1, (opens_keep l).airFault r d s trivial h.2⟩
  programEnd x d s hx h := ⟨K.programEnd x d s hx h.1, (opens_keep l).programEnd x d s trivial h.2⟩
  read i s h := ⟨K.read i s h.1, (opens_keep l).read i s h.2⟩

/-- A report `w` is reached while a law `Q` holds, leads to a law `D`, and the reports after it keep that one: the other reports of its
requester change nothing before it. -/
theorem settle_reaches {ok : Requester → Prop} {Q D : State → Prop} {w : Report} (KQ : MoveKeep ok Q)
    (underfill : ∀ x s, Q s → Q (countUnderfill x s)) (taken : ∀ s l, Q s → Q { s with reports := l })
    (inert : ∀ r s, ¬ ok r.requester → r ≠ w → Q s → takeReport r s = s) (hit : ∀ s, Q s → D (takeReport w s))
    (KD : SettleKeep ok D) (l : List Report) (n : Nat) (hn : l.length < n) {s : State} (hQ : Q s) (hl : s.opens (l ++ [w])) :
    D (settle n s) := by
  induction l generalizing n s with
  | nil =>
    obtain ⟨rest, e⟩ := hl
    obtain ⟨n, rfl⟩ : ∃ k, n = k + 1 := ⟨n - 1, by simp at hn; omega⟩
    unfold settle
    rw [← e]
    exact KD.settle n (hit _ (taken s _ hQ))
  | cons r l ih =>
    obtain ⟨rest, e⟩ := hl
    obtain ⟨n, rfl⟩ : ∃ k, n = k + 1 := ⟨n - 1, by omega⟩
    have short : l.length < n := by simpa using hn
    unfold settle
    rw [← e]
    show D (settle n (takeReport r { s with reports := l ++ [w] ++ rest }))
    have before : Q { s with reports := l ++ [w] ++ rest } ∧ State.opens (l ++ [w]) { s with reports := l ++ [w] ++ rest } :=
      ⟨taken s _ hQ, List.prefix_append _ _⟩
    by_cases own : r = w
    · subst own
      exact KD.settle n (hit _ before.1)
    · by_cases hr : ok r.requester
      · obtain ⟨after, opens⟩ := (KQ.opens (l ++ [w])).takeReport (fun x s h => ⟨underfill x s h.1, h.2⟩) r hr before
        exact ih n short after opens
      · rw [inert r _ hr own before.1]
        exact ih n short before.1 before.2

/-- An effect with one report, whose taking leaves none. -/
theorem runEffect_one_report {f : State → State} {s u v : State} {w : Report} (e : f s = u.report w) (hu : u.reports = [])
    (hv : takeReport w u = v) (hr : v.reports = []) : runEffect f s = v := by
  have alone : u.report w = { u with reports := [w] } := by
    unfold State.report
    rw [hu]
    rfl
  unfold runEffect
  rw [e, alone]
  show settle 127 (takeReport w { u with reports := [] }) = v
  rw [← hu]
  show settle 127 (takeReport w u) = v
  rw [hv, settle_nil _ _ hr]

/-- The same as a command, with no selection at a release. -/
theorem taken_one_report {f : State → State} {s u v : State} {w : Report} (h : s.awake) (e : f s = u.report w) (hu : u.reports = [])
    (hv : takeReport w u = v) (hr : v.reports = []) (hl : v.releases = .select) : taken f s = .next v := by
  rw [taken_awake f s h, runEffect_one_report e hu hv hr, if_neg (by rw [hl]; decide)]
  exact congrArg Host.Outcome.next (releases_eta v hl)

/-! ## The reports that a selection makes -/

/-- An arbitration of `n` steps makes two reports a step at most. -/
theorem length_reports_arbitrate (n : Nat) (b : Bool) (s : State) : (arbitrate n b s).reports.length ≤ s.reports.length + 2 * n := by
  have order (v : State) (d : SelPos) : (orderSelector d v).reports = v.reports := by
    unfold orderSelector
    split <;> rfl
  have tail (u : State) : (releaseTail u).reports.length = u.reports.length := by
    unfold releaseTail
    dsimp only
    split
    · rw [passCore_reports.1]
      split
      · rw [order]
      · rfl
    · split
      · rw [order]
      · rfl
  have shut (b : Bool) (u : State) : (if b then shutAtRelease u else u).reports = u.reports := by
    split
    · unfold shutAtRelease
      split <;> rfl
    · rfl
  have selected (b : Bool) (u : State) : (if b then markSelected u else u).reports = u.reports := by
    split
    · unfold markSelected
      split <;> rfl
    · rfl
  induction n generalizing b s with
  | zero => exact Nat.le_add_right _ _
  | succ n ih =>
    simp only [arbitrate]
    rw [← shut b s]
    generalize (if b = true then shutAtRelease s else s) = s
    split
    · split
      · rename_i e _
        have granted : (grantEntry (.granted e) (if b = true then markSelected s else s)).reports = s.reports ++ [.granted e.requester] := by
          show (if b = true then markSelected s else s).reports ++ [_] = _
          rw [selected]
          rfl
        generalize grantEntry (.granted e) (if b = true then markSelected s else s) = u at granted
        split
        · split
          · rename_i how _
            refine Nat.le_trans (ih _ _) ?_
            rw [mem_reports_endFill]
            show (u.reports ++ [_]).length + 2 * n ≤ _
            rw [granted]
            simp only [List.length_append, List.length_singleton]
            omega
          · show u.reports.length ≤ _
            rw [granted]
            simp only [List.length_append, List.length_singleton]
            omega
        · rw [order, granted]
          simp only [List.length_append, List.length_singleton]
          omega
      · split
        · rw [tail]
          omega
        · omega
    · split
      · rw [tail]
        omega
      · omega

theorem length_reports_select (s : State) : (select s).reports.length ≤ s.reports.length + 2 * (s.pneu.queue.length + 1) :=
  length_reports_arbitrate _ _ _

/-! ## A program that ends (spec/07 R150) -/

/-- The cursor's record is this one, and the masters' rights are those of the part before. -/
structure State.stands (x : Seat) (c : Cursor) (v s : State) : Prop where
  cursor : s.cursor x = c
  access : s.access = v.access

section

variable {x : Seat} {c : Cursor} {v : State}

theorem stands_arb : ArbKeep (State.stands x c v) where
  grant _ _ _ _ h := ⟨h.cursor, h.access⟩
  ended g how s _ _ h := by
    refine ⟨((stirs_endFill (P := fun _ => False) (.same s) g how).cursor_still x (fun k => k)).trans h.cursor, ?_⟩
    exact (access_of_bystander (stirs_endFill (P := fun _ => True) (.same s) g how).bystander).trans h.access
  requeued _ _ _ h := ⟨h.cursor, h.access⟩
  pass s h := by
    rw [passCore_touches]
    exact ⟨h.cursor, h.access⟩
  releases _ _ _ h := ⟨h.cursor, h.access⟩
  tune _ _ _ _ _ h := ⟨h.cursor, h.access⟩

theorem stands_keep : MoveKeep (· ≠ .massage x) (State.stands x c v) where
  toArbKeep := stands_arb
  ask q _ := ⟨fun _ _ _ _ _ h => ⟨h.cursor, h.access⟩, fun _ _ _ _ h => ⟨h.cursor, h.access⟩, fun _ _ _ _ h => ⟨h.cursor, h.access⟩,
    fun _ h => ⟨h.cursor, h.access⟩, fun _ h => ⟨h.cursor, h.access⟩⟩
  vent _ _ _ _ _ h := ⟨h.cursor, h.access⟩
  cursor y g s hy h := ⟨(State.cursor_modCursor_other s y x g (fun e => hy (by rw [e]))).trans h.cursor, h.access⟩
  regulator _ _ _ _ _ h := ⟨h.cursor, h.access⟩
  fault _ _ _ _ h := ⟨h.cursor, h.access⟩
  airFault r d s _ h := by
    rw [raiseSeat_touches]
    exact ⟨h.cursor, h.access⟩
  programEnd y d s _ h := by
    rw [raiseSeat_touches]
    exact ⟨h.cursor, h.access⟩
  read i s h := by
    rw [readRecord_touches]
    exact ⟨h.cursor, h.access⟩

/-- Pairs of one kind that name different seats are different pairs of a set. -/
theorem rank_ne_of_seat {p n : Notice} (hk : p.kind = n.kind) (h : p.seat ≠ n.seat) : p.rank ≠ n.rank := by
  unfold Notice.rank
  rw [hk]
  intro e
  refine h ?_
  have rank : seatRank p.seat = seatRank n.seat := by omega
  generalize p.seat = a at rank
  generalize n.seat = b at rank
  rcases a with _ | _ | _ <;> rcases b with _ | _ | _ <;> first | rfl | cases rank

/-- The program has ended: the cursor is IDLE and PROGRAM END stands at the seat's readers. -/
structure State.isOver (x : Seat) (c : Cursor) (d : Detail) (v s : State) : Prop where
  cursor : s.cursor x = c
  told : v.told s .programEnd x d none

theorem told_of_notices {k : NoticeKind} {d : Detail} {s u : State} (h : v.told s k x d none) (e : u.notices = s.notices) :
    v.told u k x d none := by
  intro m hr he
  rw [e]
  exact h m hr he

theorem isOver_arb {d : Detail} : ArbKeep (State.isOver x c d v) where
  releases _ _ _ h := ⟨h.cursor, h.told⟩
  pass s h := ⟨(passCore_cursor s x).trans h.cursor, fun m hr he => (pending_passCore s m _ (fun e => by cases e)).mpr (h.told m hr he)⟩
  tune _ _ _ _ _ h := ⟨h.cursor, h.told⟩
  grant _ _ _ _ h := ⟨h.cursor, h.told⟩
  ended g how s _ _ h := by
    refine ⟨((stirs_endFill (P := fun _ => False) (.same s) g how).cursor_still x (fun k => k)).trans h.cursor,
      told_of_notices h.told ?_⟩
    unfold endFill
    dsimp only
    split <;> rfl
  requeued _ _ _ h := ⟨h.cursor, h.told⟩

/-- A cursor in IDLE takes no report. -/
theorem takeReport_idle {s : State} {w : Report} (hw : w.requester = .massage x) (hc : (s.cursor x).state = .idle) :
    takeReport w s = s := by
  by_cases hv : w = .ventComplete (.massage x)
  · subst hv
    show cursorVentComplete x s = s
    unfold cursorVentComplete
    rw [hc]
  · exact takeReport_massage hw hv (by unfold Cursor.fillPhase; rw [hc]; rfl)

theorem isOver_keep {d : Detail} (hc : c.state = .idle) : SettleKeep (· ≠ .massage x) (State.isOver x c d v) where
  toArbKeep := isOver_arb
  moment _ _ h := ⟨h.cursor, h.told⟩
  ask q _ := ⟨fun _ _ _ _ _ h => ⟨h.cursor, h.told⟩, fun _ _ _ _ h => ⟨h.cursor, h.told⟩, fun _ _ _ _ h => ⟨h.cursor, h.told⟩,
    fun _ h => ⟨h.cursor, h.told⟩, fun _ h => ⟨h.cursor, h.told⟩⟩
  vent _ _ _ _ _ h := ⟨h.cursor, h.told⟩
  cursor y g s hy h := ⟨(State.cursor_modCursor_other s y x g (fun e => hy (by rw [e]))).trans h.cursor, h.told⟩
  regulator _ _ _ _ _ h := ⟨h.cursor, h.told⟩
  fault _ _ _ _ h := ⟨h.cursor, h.told⟩
  airFault r k s _ h := ⟨(cursor_raiseSeat _ _ _ _ s x).trans h.cursor, fun m hr he =>
    (mem_raiseSeat_other (rank_ne_of_kind _ _ (fun e => by cases e))).mpr (h.told m hr he)⟩
  programEnd y k s hy h := ⟨(cursor_raiseSeat _ _ _ _ s x).trans h.cursor, fun m hr he =>
    (mem_raiseSeat_other (p := ⟨.programEnd, some x, d⟩) (rank_ne_of_seat (n := ⟨.programEnd, some y, k⟩) rfl
      (fun e => hy (congrArg Requester.massage (Option.some.inj e).symm)))).mpr (h.told m hr he)⟩
  read i s h := by
    refine ⟨(readRecord_cursor s i x).trans h.cursor, fun m hr he => ?_⟩
    rcases readRecord_notices s i with e | ⟨n, hn, e⟩
    · rw [e]
      exact h.told m hr he
    · rw [e]
      exact deliver_keeps s n _ true .gateway m (h.told m hr he) (by rw [hn]; exact fun e => by cases e)
  take _ _ _ _ h := ⟨h.cursor, h.told⟩
  underfill _ _ _ _ _ _ h := ⟨h.cursor, h.told⟩
  inert w rest s _ hw h := by
    have own : w.requester = .massage x := Classical.not_not.mp hw
    rw [takeReport_idle (s := { s with reports := rest }) own (by
      show (s.cursor x).state = .idle
      rw [h.cursor, hc])]
    exact ⟨h.cursor, h.told⟩

/-- VENT COMPLETE at a cursor in ENDING ends its program (spec/07 R150). -/
theorem endingDone_over {s : State} (h : State.stands x c v s) (hc : c.state = .ending) :
    State.isOver x c.idled (.programEnd (c.program.getD 0) c.cause) v (takeReport (.ventComplete (.massage x)) s) := by
  have done : takeReport (.ventComplete (.massage x)) s =
      raiseSeat .programEnd x (.programEnd (c.program.getD 0) c.cause) none (s.modCursor x Cursor.idled) := by
    show cursorVentComplete x s = _
    unfold cursorVentComplete endingDone
    rw [h.cursor, hc]
  rw [done]
  refine ⟨(cursor_raiseSeat _ _ _ _ _ x).trans ((State.cursor_modCursor s x _).trans (congrArg Cursor.idled h.cursor)), fun m hr he => ?_⟩
  refine raiseSeat_reaches _ _ _ _ _ m ?_ he
  unfold State.mayRead at hr ⊢
  show rightReads ((s.access.get m).get x.region) = true
  rw [h.access]
  exact hr

end

/-! ## VENT_END (spec/05 R92) -/

/-- The part with the owner's operations gone. -/
def State.closed (s : State) (o : VentOwner) : State := s.modPneu fun p => { p with vents := dropVent o p.vents }

section

variable {s : State} {o : VentOwner}

theorem endVent_requester {r : Requester} (h : s.pneu.ventOver (.requester r) = true) :
    endVent (.requester r) s = (select (s.closed (.requester r))).report (.ventComplete r) := if_pos h

/-- With an empty queue the end of a requester's vent is its VENT COMPLETE alone. -/
theorem taken_ventComplete {r : Requester} {v : State} (h : s.awake) (hr : s.pneu.ventOver (.requester r) = true)
    (hq : s.pneu.queue = []) (e : takeReport (.ventComplete r) (s.closed (.requester r)) = v) (hv : v.reports = s.reports)
    (hl : v.releases = s.releases) : exec (.ventEnd (.requester r)) s = .next v := by
  have alone : endVent (.requester r) s = (s.closed (.requester r)).report (.ventComplete r) := by
    rw [endVent_requester hr, select_empty (s := s.closed (.requester r)) hq]
  exact taken_one_report h alone h.2.1 e (hv.trans h.2.1) (hl.trans h.2.2)

end

/-- The end of a vent of a program that ends, whatever waits in the queue (spec/07 R150). -/
theorem taken_ending {s : State} {x : Seat} (h : s.awake) (hr : s.pneu.ventOver (.requester (.massage x)) = true)
    (hc : (s.cursor x).state = .ending) (hq : s.queueLaws) :
    ∃ t, exec (.ventEnd (.requester (.massage x))) s = .next t ∧ t.cursor x = (s.cursor x).idled ∧ t.bystander = s.bystander ∧
      s.told t .programEnd x (.programEnd ((s.cursor x).program.getD 0) (s.cursor x).cause) none := by
  let u := select (s.closed (.requester (.massage x)))
  have short : u.reports.length < reportBound := by
    have made : u.reports.length ≤ _ := length_reports_select (s.closed (.requester (.massage x)))
    have none_ : (s.closed (.requester (.massage x))).reports.length = 0 := by
      show s.reports.length = 0
      rw [h.2.1]
      rfl
    have four : (s.closed (.requester (.massage x))).pneu.queue.length ≤ 4 := hq.2.1
    show u.reports.length < 128
    omega
  have stands : State.stands x (s.cursor x) s u := stands_arb.select ⟨rfl, rfl⟩
  have ended := settle_reaches (w := .ventComplete (.massage x)) (Q := State.stands x (s.cursor x) s) stands_keep
    (fun y s h => ⟨h.cursor, h.access⟩) (fun s l h => ⟨h.cursor, h.access⟩)
    (fun r v hr hw hv => takeReport_massage (Classical.not_not.mp hr) hw (by unfold Cursor.fillPhase; rw [hv.cursor, hc]; rfl))
    (fun v hv => endingDone_over hv hc) (isOver_keep rfl) u.reports reportBound short
    (s := u.report (.ventComplete (.massage x))) ⟨stands.cursor, stands.access⟩ (List.prefix_refl _)
  rw [← endVent_requester hr] at ended
  refine ⟨_, taken_awake (endVent (.requester (.massage x))) s h, ended.cursor, ?_, ended.told⟩
  have still : (endVent (.requester (.massage x)) s).bystander = s.bystander := by
    rw [endVent_requester hr]
    exact (Stirs.reports (P := fun _ => True) (stirs_select (.air (.same s) _ rfl)) _).bystander
  exact (stirs_settle reportBound _).bystander.trans still

section

variable {s : State} {x : Seat}

theorem cursorVentComplete_still (he : (s.cursor x).state ≠ .ending) (hv : ¬ ((s.cursor x).state = .running ∧ (s.cursor x).phase = .vent)) :
    cursorVentComplete x s = s := by
  unfold cursorVentComplete
  split
  · rename_i hr
    exact if_neg fun hp => hv ⟨hr, hp⟩
  · rename_i hr
    exact absurd hr he
  all_goals rfl

theorem cursorVentComplete_ending (he : (s.cursor x).state = .ending) : cursorVentComplete x s =
    raiseSeat .programEnd x (.programEnd ((s.cursor x).program.getD 0) (s.cursor x).cause) none (s.modCursor x Cursor.idled) := by
  unfold cursorVentComplete endingDone
  rw [he]

theorem cursorVentComplete_vent {f : StepFields} (hr : (s.cursor x).state = .running) (hp : (s.cursor x).phase = .vent)
    (hf : (s.cursor x).copy = some f) :
    cursorVentComplete x s = if f.fill ≠ 0 then beginFillWait x f.fill s else dwellOrAdvance x s := by
  unfold cursorVentComplete ventPhaseDone
  rw [hr, hf]
  exact if_pos hp

end

/-- The need that a regulator's cells take once its vent is complete. -/
def State.afterVent (s : State) (x : Seat) : State :=
  s.modRegulator x fun r =>
    { r with needs := ⟨needAfterVent s x .l0, needAfterVent s x .l1, needAfterVent s x .s0, needAfterVent s x .s1⟩ }

section

variable {s : State} {x : Seat}

theorem regulator_afterVent : (s.afterVent x).regulator x = { s.regulator x with
    needs := ⟨needAfterVent s x .l0, needAfterVent s x .l1, needAfterVent s x .s0, needAfterVent s x .s1⟩ } :=
  State.regulator_modRegulator s x _

theorem need_afterVent (c : HoldCell) : ((s.afterVent x).regulator x).needs.get c = needAfterVent s x c := by
  rw [regulator_afterVent]
  cases c <;> rfl

/-- With a cell to vent VENT COMPLETE gives the cells their new needs and selects. -/
theorem supportVentComplete_venting (h : ∃ c, s.need x c = .vent) : supportVentComplete x s = selectCell x (s.afterVent x) := by
  obtain ⟨c, hc⟩ := h
  exact if_neg (ventingSet_ne_zero hc)

/-- Without one it changes nothing, and neither would new needs. -/
theorem supportVentComplete_still (h : ∀ c, s.need x c ≠ .vent) : supportVentComplete x s = s ∧ s.afterVent x = s := by
  have keeps (c : HoldCell) : needAfterVent s x c = (s.regulator x).needs.get c := if_neg (h c)
  have empty : (s.regulator x).ventingSet = 0 := by
    have off (c : HoldCell) : ¬ (s.regulator x).needs.get c = .vent := h c
    simp [Regulator.ventingSet, holdCells, off]
  refine ⟨if_pos empty, ?_⟩
  unfold State.afterVent State.modRegulator
  rw [keeps, keeps, keeps, keeps]
  cases x <;> rfl

end

theorem regulator_passCore (s : State) (x : Seat) : (passCore s).regulator x = s.regulator x := by
  rw [passCore_touches]
  rfl

theorem regulator_setService (s : State) (x : Seat) (v : Service) :
    (s.setService x v).regulator x = { s.regulator x with service := v } := State.regulator_modRegulator s x _

/-- Settles O46: what the end of a vent completes, by its owner. -/
theorem ventEndCompletes : Obligations.VentEndCompletes := by
  intro o s h closed runs idle asks
  have due (r : runs) : s.pneu.ventOver o = true := (ventOver_iff _ _).mpr r
  refine ⟨fun hn => taken_still h (if_neg fun r => hn ((ventOver_iff _ _).mp r)), fun hr hq queue => ?_, fun x hr ho => ?_,
    fun x hr ho queue => ?_⟩
  · have effect : endVent o s = closed := by
      have alone : select (s.closed o) = s.closed o := select_empty (s := s.closed o) queue
      unfold endVent
      rw [if_pos (due hr)]
      cases o with
      | requester q => exact absurd rfl (hq q)
      | relief _ => exact alone
      | reset => exact alone
    show taken (endVent o) s = _
    rw [← effect]
    exact taken_quiet _ s h (by rw [effect]; exact h.2.1) (by rw [effect]; exact h.2.2)
  · subst ho
    intro c
    have completes {v : State} (queue : s.pneu.queue = []) := taken_ventComplete (v := v) h (due hr) queue
    refine ⟨fun he hv queue => ?_, fun he queue => ?_, fun he laws => taken_ending h (due hr) he laws,
      fun f hs hp hf queue => ⟨fun hz hd => ?_, fun hz holder starved => ?_⟩⟩
    · refine completes queue ?_ rfl rfl
      exact cursorVentComplete_still (s := s.closed (.requester (.massage x))) he hv
    · refine completes queue ?_ (by rw [raiseSeat_touches]; rfl) (by rw [raiseSeat_touches]; rfl)
      exact cursorVentComplete_ending (s := s.closed (.requester (.massage x))) he
    · refine completes queue ?_ rfl rfl
      refine (cursorVentComplete_vent (s := s.closed (.requester (.massage x))) hs hp hf).trans ((if_neg (Classical.not_not.mpr hz)).trans ?_)
      exact if_pos hd
    · let u := (s.closed (.requester (.massage x))).modCursor x fun c => { c with phase := .fillWait, phaseMs := 0 }
      have effect : takeReport (.ventComplete (.massage x)) (s.closed (.requester (.massage x))) =
          passCore (u.modPneu fun p => { p with queue := [requestEntry (.massage x) f.fill (s.cursor x).effTarget] }) :=
        (cursorVentComplete_vent (s := s.closed (.requester (.massage x))) hs hp hf).trans ((if_pos hz).trans
          (requestFill_starved (s := u) (r := .massage x) (s.cursor x).effTarget hz queue holder starved))
      refine ⟨_, completes queue effect passCore_reports.1 passCore_reports.2, ?_, ?_, ?_⟩
      · have waits : u.cursor x = { c with phase := .fillWait, phaseMs := 0 } := State.cursor_modCursor _ x _
        exact (passCore_cursor _ x).trans waits
      · rw [passCore_pneu, requestEntry, Nat.min_comm]
        rfl
      · refine (Stirs.pass (P := fun _ => True) (.same _)).bystander.trans ((bystander_modPneu u _ rfl).trans ?_)
        exact (bystander_modCursor _ x _ ⟨rfl, rfl, rfl⟩).trans (bystander_modPneu s _ rfl)
  · subst ho
    intro after settled
    have completes {v : State} := taken_ventComplete (v := v) h (due hr) queue
    let u := s.closed (.requester (.support x))
    have needs (c : HoldCell) : ((u.afterVent x).regulator x).needs.get c = after c := need_afterVent (s := u) c
    refine ⟨fun rest => ?_, fun k occupied free vents fill low holder starved => ?_⟩
    · have effect : supportVentComplete x u = u.afterVent x := by
        by_cases vents : ∃ c, u.need x c = .vent
        · rw [supportVentComplete_venting vents]
          refine selectCell_idle (rest.imp id (Or.imp (fun e => ?_) fun e c => ?_))
          · rw [regulator_afterVent]
            exact e
          · rw [needs]
            exact e c
        · obtain ⟨same, none_⟩ := supportVentComplete_still (not_exists.mp vents)
          rw [same, none_]
      exact completes effect rfl rfl
    · have effect : supportVentComplete x u = passCore (((u.afterVent x).setService x (.waiting k)).modPneu fun p =>
          { p with queue := [requestEntry (.support x) (cellBit k) (s.setpoint x k).value] }) :=
        (supportVentComplete_venting (s := u) vents).trans (selectCell_starved (s := u.afterVent x) occupied
          (by rw [regulator_afterVent]; exact free) (by rw [needs]; exact fill) (fun c hc => by rw [needs]; exact low c hc)
          queue holder starved)
      have reports : ((u.afterVent x).setService x (.waiting k)).reports = s.reports := rfl
      have releases : ((u.afterVent x).setService x (.waiting k)).releases = s.releases := rfl
      refine ⟨_, completes effect (passCore_reports.1.trans reports) (passCore_reports.2.trans releases), ?_, fun c => ?_, ?_, ?_⟩
      · rw [regulator_passCore]
        exact congrArg Regulator.service (regulator_setService (u.afterVent x) x _)
      · refine Eq.trans (congrArg (fun r : Regulator => r.needs.get c) (regulator_passCore _ x)) ?_
        exact (congrArg (fun r : Regulator => r.needs.get c) (regulator_setService (u.afterVent x) x (.waiting k))).trans (needs c)
      · rw [passCore_pneu, requestEntry, Nat.min_comm]
        rfl
      · have shut : Stirs (fun _ => True) s u := .air (.same s) _ rfl
        have needed : Stirs (fun _ => True) s (u.afterVent x) := .regulator shut x _ rfl
        have served : Stirs (fun _ => True) s ((u.afterVent x).setService x (.waiting k)) := .regulator needed x _ rfl
        exact (Stirs.pass (.air served _ rfl)).bystander

end Sys2Proof.Machine
end
section
/-! PROOFS. The end of a fill and the release of its grant (spec/05 R103 to R110), as the requester takes them (for O43 to O45). -/
namespace Sys2Proof.Machine

section

variable {s v : State} {g : Holder} {how : FillEnd} {x : Seat}

/-! ## The first report -/

theorem finishFill_opens (hv : v.reports = []) : (finishFill g how v).opens [.ended g.entry.requester how] := by
  refine (opens_keep _).release ?_
  unfold State.opens
  rw [mem_reports_endFill, hv]
  exact List.prefix_refl _

/-- A fill's end, whose requester takes its outcome first. -/
theorem taken_finish {ok : Requester → Prop} {D : State → Prop} (K : SettleKeep ok D) {f : State → State} (h : s.awake)
    (e : f s = finishFill g how v) (hv : v.reports = [])
    (hit : ∀ rest, (finishFill g how v).reports = .ended g.entry.requester how :: rest →
      D (takeReport (.ended g.entry.requester how) { finishFill g how v with reports := rest })) :
    ∃ t, taken f s = .next t ∧ D t ∧ Stirs (fun _ => True) v t := by
  have reached : D (settle reportBound (f s)) := by
    obtain ⟨rest, first⟩ := finishFill_opens (g := g) (how := how) hv
    have hd := hit rest first.symm
    rw [e]
    show D (settle (127 + 1) _)
    unfold settle
    rw [← first]
    exact K.settle 127 hd
  refine ⟨_, taken_awake f s h, K.moment _ _ reached, ?_⟩
  have effect : Stirs (fun _ => True) v (f s) := by
    rw [e]
    exact stirs_finishFill (.same v) g how
  exact (effect.trans (stirs_settle reportBound (f s))).releases _

/-- With an empty queue a release has no entry to grant (spec/05 R109). -/
theorem release_empty (hq : s.pneu.queue = []) (hl : s.releases ≠ .armed) : release s = releaseTail s := by
  have none_ : choose s = none := by
    rw [choose_eq_none, hq]
    exact fun e he => nomatch he
  have open_ : shutAtRelease s = s := if_neg hl
  unfold release
  simp only [arbitrate, if_true]
  rw [open_, none_]
  exact ite_self _

theorem releaseTail_keeps (s : State) : (releaseTail s).reports = s.reports ∧ (releaseTail s).releases = s.releases ∧
    (releaseTail s).pneu = { s.pneu with selector := (releaseTail s).pneu.selector } := by
  have order (d : SelPos) : (orderSelector d s).reports = s.reports ∧ (orderSelector d s).releases = s.releases ∧
      (orderSelector d s).pneu = { s.pneu with selector := (orderSelector d s).pneu.selector } := by
    unfold orderSelector
    split <;> exact ⟨rfl, rfl, rfl⟩
  unfold releaseTail
  dsimp only
  split
  · rw [passCore_reports.1, passCore_reports.2, passCore_pneu]
    split
    · exact order .neutral
    · exact ⟨rfl, rfl, rfl⟩
  · split
    · exact order .neutral
    · exact ⟨rfl, rfl, rfl⟩

theorem endFill_keeps (g : Holder) (how : FillEnd) (s : State) : (endFill g how s).releases = s.releases ∧
    (endFill g how s).pneu.queue = s.pneu.queue ∧ (endFill g how s).pneu.holder = none ∧
    (endFill g how s).pneu.compressor = false := by
  unfold endFill
  dsimp only
  split <;> exact ⟨rfl, rfl, rfl, rfl⟩

/-- With an empty queue the release makes no report of its own, and leaves the air at rest. -/
theorem finishFill_quiet (hq : v.pneu.queue = []) (hv : v.reports = []) (hl : v.releases = .select) :
    ∃ u : State, finishFill g how v = u.report (.ended g.entry.requester how) ∧ u.reports = [] ∧ u.releases = .select ∧
      u.pneu.queue = [] ∧ u.pneu.holder = none ∧ u.pneu.compressor = false := by
  obtain ⟨releases, queue, holder, compressor⟩ := endFill_keeps g how v
  have reports : (endFill g how v).reports = [.ended g.entry.requester how] := by
    rw [mem_reports_endFill, hv]
    rfl
  have alone : finishFill g how v = releaseTail (endFill g how v) :=
    release_empty (queue.trans hq) (by rw [releases, hl]; exact fun e => nomatch e)
  obtain ⟨tailReports, tailReleases, tailPneu⟩ := releaseTail_keeps (endFill g how v)
  rw [← alone] at tailReports tailReleases tailPneu
  refine ⟨{ finishFill g how v with reports := [] }, ?_, rfl, tailReleases.trans (releases.trans hl), ?_, ?_, ?_⟩
  · show finishFill g how v = { finishFill g how v with reports := [] ++ [.ended g.entry.requester how] }
    rw [List.nil_append, ← reports, ← tailReports]
  · exact (congrArg Pneumatic.queue tailPneu).trans (queue.trans hq)
  · exact (congrArg Pneumatic.holder tailPneu).trans holder
  · exact (congrArg Pneumatic.compressor tailPneu).trans compressor

/-! ## A massage fill -/

theorem endFill_rests (hv : v.reports = []) : (endFill g how v).rests x (v.cursor x) (v.pneu.opsOf (.requester (.massage x)))
    (∀ e ∈ v.pneu.queue, e.requester ≠ .massage x) := by
  obtain ⟨-, queue, holder, -⟩ := endFill_keeps g how v
  refine ⟨?_, opsOf_endFill g how v (fun y e => nomatch e), ?_, fun hq => ⟨?_, ?_⟩⟩
  · exact (stirs_endFill (P := fun _ => False) (.same v) g how).cursor_still x fun k => k
  · exact unreported_append (s := v) (unreported_of_awake hv) mem_reports_endFill fun e => nomatch e
  · rw [queue]
    exact hq
  · rw [holder]
    exact fun _ e => nomatch e

/-- Until the cursor takes the outcome, it rests (spec/07 R142). -/
theorem finishFill_rests (hv : v.reports = []) : (finishFill g how v).rests x (v.cursor x) (v.pneu.opsOf (.requester (.massage x)))
    (∀ e ∈ v.pneu.queue, e.requester ≠ .massage x) := rests_arb.release (endFill_rests hv)

/-- The cursor's record once its fill has ended DONE or UNDERFILL and its step dwells; `atStart` says that the start check ended it. -/
def Cursor.dwells (atStart : Bool) (c : Cursor) : Cursor :=
  { c with phase := .dwell, phaseMs := 100 * c.effDwell, hops := if atStart then c.hops else 0 }

/-- How a fill ends that leads to its step's dwell. -/
def FillEnd.dwells (atStart : Bool) : FillEnd → Prop
  | .done b _ => b = atStart
  | .underfill _ => atStart = false
  | _ => False

/-- The underfill count after an ending. -/
def FillEnd.count (n : Nat) : FillEnd → Nat
  | .underfill _ => min 255 (n + 1)
  | _ => n

/-- A resting cursor whose seat has counted `n` underfills. -/
structure State.counts (x : Seat) (c : Cursor) (V : List VentOp) (b : Prop) (n : Nat) (s : State) : Prop where
  rests : s.rests x c V b
  underfill : (s.seat x).underfill = n

theorem counts_arb {c : Cursor} {V : List VentOp} {b : Prop} {n : Nat} : ArbKeep (State.counts x c V b n) where
  releases r s hn h := ⟨rests_arb.releases r s hn h.rests, h.underfill⟩
  pass s h := by
    refine ⟨rests_arb.pass s h.rests, ?_⟩
    rw [passCore_touches]
    exact h.underfill
  tune f s hq hv hh h := ⟨rests_arb.tune f s hq hv hh h.rests, h.underfill⟩
  grant e s hn hm h := ⟨rests_arb.grant e s hn hm h.rests, h.underfill⟩
  ended g how s hh ha h := by
    refine ⟨rests_arb.ended g how s hh ha h.rests, Eq.trans ?_ h.underfill⟩
    unfold endFill
    dsimp only
    split <;> rfl
  requeued g s hg h := ⟨rests_arb.requeued g s hg h.rests, h.underfill⟩

theorem counts_keep {c : Cursor} {V : List VentOp} {b : Prop} {n : Nat} (hc : c.fillPhase = false) :
    SettleKeep (· ≠ .massage x) (State.counts x c V b n) where
  toArbKeep := counts_arb
  moment r s h := ⟨(rests_keep hc).moment r s h.rests, h.underfill⟩
  ask q hq :=
    ⟨fun k g s hk hs h => ⟨(rests_ask hq).replace k g s hk hs h.rests, h.underfill⟩,
      fun k g s hk h => ⟨(rests_ask hq).rehold k g s hk h.rests, h.underfill⟩,
      fun k g s hk h => ⟨(rests_ask hq).append k g s hk h.rests, h.underfill⟩,
      fun s h => ⟨(rests_ask hq).remove s h.rests, h.underfill⟩, fun s h => ⟨(rests_ask hq).unvent s h.rests, h.underfill⟩⟩
  vent q k s hq hk h := ⟨(rests_keep hc).vent q k s hq hk h.rests, h.underfill⟩
  cursor y g s hy h := ⟨(rests_keep hc).cursor y g s hy h.rests, h.underfill⟩
  regulator y g s hy hg h := ⟨(rests_keep hc).regulator y g s hy hg h.rests, h.underfill⟩
  fault y k s hy h := ⟨(rests_keep hc).fault y k s hy h.rests, by cases x <;> cases y <;> exact h.underfill⟩
  airFault r d s hr h := by
    refine ⟨(rests_keep hc).airFault r d s hr h.rests, ?_⟩
    rw [raiseSeat_touches]
    exact h.underfill
  programEnd y d s hy h := by
    refine ⟨(rests_keep hc).programEnd y d s hy h.rests, ?_⟩
    rw [raiseSeat_touches]
    exact h.underfill
  read i s h := by
    refine ⟨(rests_keep hc).read i s h.rests, ?_⟩
    rw [readRecord_touches]
    exact h.underfill
  take w rest s e h := ⟨(rests_keep hc).take w rest s e h.rests, h.underfill⟩
  underfill y m rest s e hy h := by
    refine ⟨(rests_keep hc).underfill y m rest s e hy h.rests, ?_⟩
    have other : y ≠ x := fun k => hy (by rw [k])
    exact (congrArg SeatRecord.underfill (State.seat_modSeat_other _ y x _ (Ne.symm other))).trans h.underfill
  inert w rest s e hw h := by
    refine ⟨(rests_keep hc).inert w rest s e hw h.rests, ?_⟩
    have own : w.requester = .massage x := Classical.not_not.mp hw
    have still : takeReport w { s with reports := rest } = { s with reports := rest } :=
      takeReport_massage own (fun i => h.rests.unreported (by rw [e, i]; exact List.mem_cons_self ..)) (by
        show (s.cursor x).fillPhase = false
        rw [h.rests.cursor, hc])
    rw [still]
    exact h.underfill

/-- The outcome of a fill that leads to its step's dwell, taken by its cursor (spec/07 R143). -/
theorem cursorOutcome_dwells {atStart : Bool} (hh : how.dwells atStart) (hf : (s.cursor x).fillPhase = true)
    (hd : (s.cursor x).effDwell ≠ 0) : cursorOutcome x how s =
      State.modCursor (s.modSeat x fun r => { r with underfill := how.count r.underfill }) x (Cursor.dwells atStart) := by
  have fills (b : Bool) (u : State) (hu : (u.cursor x).effDwell ≠ 0) : cursorFilled x b u = u.modCursor x (Cursor.dwells b) := by
    unfold cursorFilled dwellOrAdvance
    cases b with
    | true =>
      have slow : (u.cursor x).fillTakesNoTime = false := by
        unfold Cursor.fillTakesNoTime
        split
        · simp [hu]
        · rfl
      rw [if_pos rfl, slow]
      exact if_pos hu
    | false =>
      have kept : ((u.modCursor x fun c => { c with hops := 0 }).cursor x).effDwell ≠ 0 := by
        rw [State.cursor_modCursor]
        exact hu
      rw [if_neg (by decide), if_pos kept]
      exact modCursor_modCursor u x _ _
  have same : (s.modSeat x fun r => { r with underfill := r.underfill }) = s := by cases x <;> rfl
  unfold cursorOutcome
  rw [if_pos hf]
  cases how with
  | done b m =>
    cases hh
    show cursorFilled x _ s = State.modCursor (s.modSeat x fun r => { r with underfill := r.underfill }) x _
    rw [fills _ s hd, same]
  | underfill m =>
    cases hh
    exact fills false (countUnderfill x s) hd
  | leak _ => exact hh.elim
  | overpressure _ => exact hh.elim
  | suspend => exact hh.elim
  | withdrawn => exact hh.elim

/-- A massage fill that leads to its step's dwell (spec/05 R103, R105, spec/07 R143). -/
theorem taken_fill_dwells {f : State → State} {atStart : Bool} (h : s.awake) (e : f s = finishFill g how v) (hv : v.reports = [])
    (hl : v.releases = .select) (hr : g.entry.requester = .massage x) (hh : how.dwells atStart)
    (hf : (v.cursor x).fillPhase = true) (hd : (v.cursor x).effDwell ≠ 0) :
    ∃ t, taken f s = .next t ∧ t.cursor x = (v.cursor x).dwells atStart ∧ (t.seat x).underfill = how.count (v.seat x).underfill ∧
      t.bystander = v.bystander ∧ ((∀ e ∈ v.pneu.queue, e.requester ≠ .massage x) → t.absent (.massage x)) ∧
      (v.pneu.queue = [] → t.pneu.holder = none ∧ t.pneu.compressor = false) := by
  have rests := finishFill_rests (g := g) (how := how) (x := x) hv
  have seat : ((finishFill g how v).seat x).underfill = (v.seat x).underfill := by
    have ended : ((endFill g how v).seat x).underfill = (v.seat x).underfill := by
      unfold endFill
      dsimp only
      split <;> rfl
    exact (counts_arb.release ⟨endFill_rests (x := x) hv, ended⟩).underfill
  obtain ⟨t, ht, law, stirs⟩ := taken_finish (counts_keep (x := x) (c := (v.cursor x).dwells atStart)
    (V := v.pneu.opsOf (.requester (.massage x))) (b := ∀ e ∈ v.pneu.queue, e.requester ≠ .massage x)
    (n := how.count (v.seat x).underfill) (by
      unfold Cursor.dwells Cursor.fillPhase
      exact Bool.and_false _)) h e hv fun rest first => by
        have cursor : (State.cursor { finishFill g how v with reports := rest } x) = v.cursor x := rests.cursor
        rw [hr]
        show State.counts x _ _ _ _ (cursorOutcome x how _)
        rw [cursorOutcome_dwells hh (by rw [cursor]; exact hf) (by rw [cursor]; exact hd)]
        refine ⟨⟨?_, rests.ops, ?_, rests.absent⟩, ?_⟩
        · rw [State.cursor_modCursor]
          exact congrArg (Cursor.dwells atStart) cursor
        · exact fun m => rests.unreported (by rw [first]; exact List.mem_cons_of_mem _ m)
        · rw [← seat]
          exact congrArg SeatRecord.underfill
            (State.seat_modSeat { finishFill g how v with reports := rest } x fun r => { r with underfill := how.count r.underfill })
  refine ⟨t, ht, law.rests.cursor, law.underfill, stirs.bystander, law.rests.absent, fun hq => ?_⟩
  obtain ⟨u, alone, reports, releases, queue, holder, compressor⟩ := finishFill_quiet (g := g) (how := how) hq hv hl
  have outcome : takeReport (.ended g.entry.requester how) u =
      State.modCursor (u.modSeat x fun r => { r with underfill := how.count r.underfill }) x (Cursor.dwells atStart) := by
    have cursor : u.cursor x = v.cursor x := by
      have same := rests.cursor
      rw [alone] at same
      exact same
    rw [hr]
    exact cursorOutcome_dwells hh (by rw [cursor]; exact hf) (by rw [cursor]; exact hd)
  have exactly := taken_one_report h (e.trans alone) reports outcome reports releases
  cases Host.Outcome.next.inj (ht.symm.trans exactly)
  exact ⟨holder, compressor⟩

/-! ## A massage fill that faults its cursor (spec/07 R151) -/

/-- What a fill's end faults its cursor with. -/
def FillEnd.fault : FillEnd → Option FaultCode
  | .leak _ => some .leak
  | .overpressure _ => some .overpressure
  | _ => none

theorem cursorOutcome_faults {code : FaultCode} (hh : how.fault = some code) (hf : (s.cursor x).fillPhase = true) :
    cursorOutcome x how s = enterFault x code s := by
  unfold cursorOutcome
  rw [if_pos hf]
  cases how <;> cases hh <;> rfl

/-- A requester with neither an entry nor a grant has nothing to withdraw. -/
theorem withdraw_absent {r : Requester} (h : s.absent r) : withdraw r s = s := by
  have unqueued : s.isQueued r = false := List.any_eq_false.mpr fun e he k => h.1 e he (by simpa using k)
  have unheld : s.heldBy r = none := by
    cases hb : s.heldBy r with
    | none => rfl
    | some g => exact absurd (heldBy_some hb).2 (h.2 g (heldBy_some hb).1)
  unfold withdraw
  rw [unqueued, unheld]
  rfl

theorem withdrawCursor_absent_of (h : s.absent (.massage x)) : withdrawCursor x s = s := by
  unfold withdrawCursor
  split
  · exact withdraw_absent h
  · rfl

/-- A massage fill that leaks or bursts faults its cursor (spec/05 R104, R106, spec/07 R143, R151). -/
theorem taken_fill_faults {f : State → State} {code : FaultCode} (h : s.awake) (e : f s = finishFill g how v) (hv : v.reports = [])
    (hl : v.releases = .select) (hr : g.entry.requester = .massage x) (hh : how.fault = some code)
    (hf : (v.cursor x).fillPhase = true) :
    ∃ t, taken f s = .next t ∧ t.cursor x = (v.cursor x).faulted code ∧ t.bystander = v.bystander ∧
      ((∀ e ∈ v.pneu.queue, e.requester ≠ .massage x) → t.absent (.massage x)) ∧
      (v.pneu.queue = [] → t.pneu.holder = none ∧ t.pneu.compressor = false) := by
  have rests := finishFill_rests (g := g) (how := how) (x := x) hv
  have outcome (u : State) (cursor : u.cursor x = v.cursor x) : takeReport (.ended g.entry.requester how) u = enterFault x code u := by
    rw [hr]
    exact cursorOutcome_faults hh (by rw [cursor]; exact hf)
  obtain ⟨t, ht, law, stirs⟩ := taken_finish (rests_keep (x := x) (c := (v.cursor x).faulted code)
    (V := [⟨.requester (.massage x), massageCells, (finishFill g how v).ventWindow⟩])
    (b := ∀ e ∈ v.pneu.queue, e.requester ≠ .massage x) (by rfl)) h e hv fun rest first => by
      rw [outcome { finishFill g how v with reports := rest } rests.cursor]
      have faulted := rests_enterFault (s := { finishFill g how v with reports := rest }) (x := x)
        (b := ∀ e ∈ v.pneu.queue, e.requester ≠ .massage x) code
        (fun m => rests.unreported (by rw [first]; exact List.mem_cons_of_mem _ m))
        fun hq => by
          rw [withdrawCursor_absent_of (s := { finishFill g how v with reports := rest }) (rests.absent hq)]
          exact rests.absent hq
      rw [show State.cursor { finishFill g how v with reports := rest } x = _ from rests.cursor] at faulted
      exact faulted
  refine ⟨t, ht, law.cursor, stirs.bystander, law.absent, fun hq => ?_⟩
  obtain ⟨u, alone, reports, releases, queue, holder, compressor⟩ := finishFill_quiet (g := g) (how := how) hq hv hl
  have cursor : u.cursor x = v.cursor x := by
    have same := rests.cursor
    rw [alone] at same
    exact same
  have exactly := taken_one_report h (e.trans alone) reports ((outcome u cursor).trans (enterFault_quiet code queue holder))
    (by rw [raiseSeat_touches]; exact reports) (by rw [raiseSeat_touches]; exact releases)
  cases Host.Outcome.next.inj (ht.symm.trans exactly)
  rw [raiseSeat_touches]
  exact ⟨holder, compressor⟩

/-! ## The RELIEF vent that stands (spec/05 R106) -/

/-- A RELIEF operation of the seat runs a full window, and no request is for no cell. -/
structure State.relieves (x : Seat) (n : Nat) (s : State) : Prop where
  op : ∃ op ∈ s.pneu.vents, op.owner = .relief x ∧ op.left = n
  queued : ∀ e ∈ s.pneu.queue, e.cells ≠ 0
  held : ∀ e, s.pneu.holder.map Holder.entry = some e → e.cells ≠ 0
  window : s.ventWindow = n

theorem relieves_startVent {n : Nat} (o : VentOwner) (c : CellSet) (ho : o ≠ .relief x) (h : s.relieves x n) :
    (startVent o c s).relieves x n := by
  obtain ⟨op, hop, owner, left⟩ := h.op
  refine ⟨⟨op, ?_, owner, left⟩, h.queued, h.held, h.window⟩
  have own := mem_opsOf.mpr ⟨hop, owner⟩
  rw [← opsOf_startVent_other c s ho] at own
  exact (mem_opsOf.mp own).1

theorem relieves_endFill {n : Nat} (g : Holder) (how : FillEnd) (hc : g.entry.cells ≠ 0) (h : s.relieves x n) :
    (endFill g how s).relieves x n := by
  have stopped : State.relieves x n (s.modPneu fun p => { p with compressor := false, holder := none, parkNone := s.parksNowhere }) :=
    ⟨h.op, h.queued, fun e he => (nomatch he), h.window⟩
  unfold endFill
  dsimp only
  split
  · by_cases own : g.seat = x
    · rw [own]
      exact ⟨⟨⟨.relief x, g.entry.cells, _⟩, startVent_mem _ _ hc, rfl, stopped.window⟩, stopped.queued, stopped.held, stopped.window⟩
    · have other := relieves_startVent (.relief g.seat) g.entry.cells (fun e => own (VentOwner.relief.inj e)) stopped
      exact ⟨other.op, other.queued, other.held, other.window⟩
  · exact ⟨stopped.op, stopped.queued, stopped.held, stopped.window⟩

theorem relieves_keep {n : Nat} : SettleKeep (fun _ => True) (State.relieves x n) where
  releases _ _ _ h := ⟨h.op, h.queued, h.held, h.window⟩
  moment _ _ h := ⟨h.op, h.queued, h.held, h.window⟩
  pass s h := by
    rw [passCore_touches]
    exact ⟨h.op, h.queued, h.held, h.window⟩
  tune f s hq hv hh h := by
    refine ⟨?_, ?_, ?_, h.window⟩
    · show ∃ op ∈ (f s.pneu).vents, _
      rw [hv]
      exact h.op
    · show ∀ e ∈ (f s.pneu).queue, _
      rw [hq]
      exact h.queued
    · show ∀ e, (f s.pneu).holder.map Holder.entry = some e → _
      rw [hh]
      exact h.held
  grant e s _ hm h := by
    refine ⟨?_, fun q hq => ?_, fun q hq => ?_, h.window⟩
    · rw [vents_grantEntry]
      exact h.op
    · rw [queue_grantEntry] at hq
      exact h.queued q ((removeEntry_sublist _ _).subset hq)
    · cases hq
      exact h.queued e hm
  ended g how s hh _ h := relieves_endFill g how (h.held g.entry hh) h
  requeued g s hg h := by
    refine ⟨h.op, fun e he => ?_, fun e he => (nomatch he), h.window⟩
    cases he with
    | head => exact h.held g.entry (by rw [hg]; rfl)
    | tail _ m => exact h.queued e m
  ask r _ :=
    { replace := fun c g s hc _ h => by
        refine ⟨h.op, fun e he => ?_, h.held, h.window⟩
        obtain ⟨w, hw, rfl⟩ := List.mem_map.mp he
        split
        · exact hc
        · exact h.queued w hw
      rehold := fun c g s hc h => by
        refine ⟨h.op, fun e he => ?_, fun e he => (nomatch he), h.window⟩
        cases he with
        | head => exact hc
        | tail _ m => exact h.queued e m
      append := fun c g s hc h => by
        refine ⟨h.op, fun e he => ?_, h.held, h.window⟩
        cases List.mem_append.mp he with
        | inl m => exact h.queued e m
        | inr m =>
          rw [List.mem_singleton.mp m]
          exact hc
      remove := fun s h => ⟨h.op, fun e he => h.queued e ((removeEntry_sublist _ _).subset he), h.held, h.window⟩
      unvent := fun s h => by
        obtain ⟨op, hop, owner, left⟩ := h.op
        refine ⟨⟨op, List.mem_filter.mpr ⟨hop, ?_⟩, owner, left⟩, h.queued, h.held, h.window⟩
        rw [owner]
        rfl }
  vent r c s _ _ h := relieves_startVent _ c (fun e => nomatch e) h
  cursor _ _ _ _ h := ⟨h.op, h.queued, h.held, h.window⟩
  regulator _ _ _ _ _ h := ⟨h.op, h.queued, h.held, h.window⟩
  fault _ _ _ _ h := ⟨h.op, h.queued, h.held, h.window⟩
  airFault r d s _ h := by
    rw [raiseSeat_touches]
    exact ⟨h.op, h.queued, h.held, h.window⟩
  programEnd y d s _ h := by
    rw [raiseSeat_touches]
    exact ⟨h.op, h.queued, h.held, h.window⟩
  read i s h := by
    rw [readRecord_touches]
    exact ⟨h.op, h.queued, h.held, h.window⟩
  take _ _ _ _ h := ⟨h.op, h.queued, h.held, h.window⟩
  underfill _ _ _ _ _ _ h := ⟨h.op, h.queued, h.held, h.window⟩
  inert _ _ _ _ hw _ := absurd trivial hw

/-- The RELIEF vent of a burst runs a full window, whatever waits in a lawful queue (spec/05 R106). -/
theorem taken_burst_relieved {f : State → State} {m : Nat} (h : s.awake) (e : f s = finishFill g (.overpressure m) v) (hv : v.reports = [])
    (hc : g.entry.cells ≠ 0) (hq : ∀ e ∈ v.pneu.queue, e.cells ≠ 0) :
    ∃ t, taken f s = .next t ∧ ∃ op ∈ t.pneu.vents, op.owner = .relief g.seat ∧ op.left = v.ventWindow := by
  have begun : (endFill g (.overpressure m) v).relieves g.seat v.ventWindow :=
    ⟨⟨⟨.relief g.seat, g.entry.cells, _⟩, startVent_mem _ _ hc, rfl, rfl⟩, hq, fun _ k => (nomatch k), rfl⟩
  have released : (finishFill g (.overpressure m) v).relieves g.seat v.ventWindow := relieves_keep.release begun
  obtain ⟨t, ht, law, -⟩ := taken_finish relieves_keep h e hv fun rest first =>
    relieves_keep.taken_report _ rest first released
  exact ⟨t, ht, law.op⟩

/-! ## A seat that asks for nothing else (spec/05 R106, spec/10 R185) -/

/-- No entry, grant or report is the seat's but those of `l`, and its RELIEF operations are these. -/
structure State.silent (x : Seat) (l : List Report) (ops : List VentOp) (s : State) : Prop where
  queued : ∀ e ∈ s.pneu.queue, e.requester.seat ≠ x
  held : ∀ e, s.pneu.holder.map Holder.entry = some e → e.requester.seat ≠ x
  reports : ∃ rest, s.reports = l ++ rest ∧ ∀ r ∈ rest, r.requester.seat ≠ x
  ops : s.pneu.opsOf (.relief x) = ops

section

variable {l : List Report} {ops : List VentOp}

theorem silent_report {s t : State} {w : Report} (h : ∃ rest, s.reports = l ++ rest ∧ ∀ r ∈ rest, r.requester.seat ≠ x)
    (e : t.reports = s.reports ++ [w]) (hw : w.requester.seat ≠ x) : ∃ rest, t.reports = l ++ rest ∧ ∀ r ∈ rest, r.requester.seat ≠ x := by
  obtain ⟨rest, hr, hs⟩ := h
  refine ⟨rest ++ [w], by rw [e, hr, List.append_assoc], fun r hm => ?_⟩
  cases List.mem_append.mp hm with
  | inl m => exact hs r m
  | inr m =>
    rw [List.mem_singleton.mp m]
    exact hw

theorem opsOf_endFill_seat (g : Holder) (how : FillEnd) (hg : g.seat ≠ x) : (endFill g how s).pneu.opsOf (.relief x) = s.pneu.opsOf (.relief x) := by
  unfold endFill
  dsimp only
  split
  · exact opsOf_startVent_other _ _ fun e => hg (VentOwner.relief.inj e)
  · rfl

theorem silent_arb : ArbKeep (State.silent x l ops) where
  releases _ _ _ h := ⟨h.queued, h.held, h.reports, h.ops⟩
  pass s h := by
    rw [passCore_touches]
    exact ⟨h.queued, h.held, h.reports, h.ops⟩
  tune f s hq hv hh h := by
    refine ⟨?_, ?_, h.reports, ?_⟩
    · show ∀ e ∈ (f s.pneu).queue, _
      rw [hq]
      exact h.queued
    · show ∀ e, (f s.pneu).holder.map Holder.entry = some e → _
      rw [hh]
      exact h.held
    · show List.filter _ (f s.pneu).vents = _
      rw [hv]
      exact h.ops
  grant e s _ hm h := by
    refine ⟨fun q hq => ?_, fun q hq => ?_, silent_report (w := .granted e.requester) h.reports rfl (h.queued e hm), ?_⟩
    · rw [queue_grantEntry] at hq
      exact h.queued q ((removeEntry_sublist _ _).subset hq)
    · cases hq
      exact h.queued e hm
    · unfold Pneumatic.opsOf
      rw [vents_grantEntry]
      exact h.ops
  ended g how s hh _ h := by
    have other : g.entry.requester.seat ≠ x := h.held g.entry hh
    obtain ⟨-, queue, holder, -⟩ := endFill_keeps g how s
    refine ⟨?_, fun e he => ?_, silent_report h.reports mem_reports_endFill other, (opsOf_endFill_seat g how other).trans h.ops⟩
    · rw [queue]
      exact h.queued
    · rw [holder] at he
      cases he
  requeued g s hg h := by
    have other : g.entry.requester.seat ≠ x := h.held g.entry (by rw [hg]; rfl)
    refine ⟨fun e he => ?_, fun e he => (nomatch he), silent_report (s := requeue g.entry s.pneu.parkNone s) h.reports rfl other, h.ops⟩
    cases he with
    | head => exact other
    | tail _ m => exact h.queued e m

theorem silent_startVent {o : VentOwner} (c : CellSet) (ho : o ≠ .relief x) (h : s.silent x l ops) : (startVent o c s).silent x l ops :=
  ⟨h.queued, h.held, h.reports, (opsOf_startVent_other c s ho).trans h.ops⟩

theorem State.silent.absent {r : Requester} (h : s.silent x l ops) (hr : r.seat = x) : s.absent r :=
  ⟨fun e he k => h.queued e he (by rw [k]; exact hr), fun g hg k => h.held g.entry (by rw [hg]; rfl) (by rw [k]; exact hr)⟩

end

/-- Beside that, the AIR FAULT pair of the seat stands at its readers. -/
structure State.hushed (x : Seat) (ops : List VentOp) (d : Detail) (v s : State) : Prop where
  silent : s.silent x [] ops
  told : v.told s .airFault x d none

section

variable {ops : List VentOp} {d : Detail} {p : State}

theorem silent_ask {l : List Report} {r : Requester} (hr : r.seat ≠ x) : MayAsk (State.silent x l ops) r where
  replace c g s _ _ h := by
    refine ⟨fun e he => ?_, h.held, h.reports, h.ops⟩
    obtain ⟨w, hw, rfl⟩ := List.mem_map.mp he
    split
    · exact hr
    · exact h.queued w hw
  rehold c g s _ h := by
    refine ⟨fun e he => ?_, fun e he => (nomatch he), h.reports, h.ops⟩
    cases he with
    | head => exact hr
    | tail _ m => exact h.queued e m
  append c g s _ h := by
    refine ⟨fun e he => ?_, h.held, h.reports, h.ops⟩
    cases List.mem_append.mp he with
    | inl m => exact h.queued e m
    | inr m =>
      rw [List.mem_singleton.mp m]
      exact hr
  remove s h := ⟨fun e he => h.queued e ((removeEntry_sublist _ _).subset he), h.held, h.reports, h.ops⟩
  unvent s h := ⟨h.queued, h.held, h.reports,
    (filter_dropVent_other (o := .relief x) (k := .requester r) _ (fun e => nomatch e)).trans h.ops⟩

theorem silent_of_air {l : List Report} {s t : State} (h : s.silent x l ops) (hp : t.pneu = s.pneu) (hr : t.reports = s.reports) :
    t.silent x l ops := by
  refine ⟨?_, ?_, ?_, ?_⟩
  · rw [hp]
    exact h.queued
  · rw [hp]
    exact h.held
  · rw [hr]
    exact h.reports
  · rw [hp]
    exact h.ops

theorem hushed_keep : SettleKeep (fun r => r.seat ≠ x) (State.hushed x ops d p) where
  releases r s hn h := ⟨silent_arb.releases r s hn h.silent, h.told⟩
  moment _ _ h := ⟨silent_of_air h.silent rfl rfl, h.told⟩
  pass s h := ⟨silent_arb.pass s h.silent, fun m hr he => (pending_passCore s m _ (fun e => by cases e)).mpr (h.told m hr he)⟩
  tune f s hq hv hh h := ⟨silent_arb.tune f s hq hv hh h.silent, h.told⟩
  grant e s hn hm h := ⟨silent_arb.grant e s hn hm h.silent, h.told⟩
  ended g how s hh ha h := by
    refine ⟨silent_arb.ended g how s hh ha h.silent, told_of_notices h.told ?_⟩
    unfold endFill
    dsimp only
    split <;> rfl
  requeued g s hg h := ⟨silent_arb.requeued g s hg h.silent, h.told⟩
  ask r hr :=
    ⟨fun c g s hc hq h => ⟨(silent_ask hr).replace c g s hc hq h.silent, h.told⟩,
      fun c g s hc h => ⟨(silent_ask hr).rehold c g s hc h.silent, h.told⟩,
      fun c g s hc h => ⟨(silent_ask hr).append c g s hc h.silent, h.told⟩,
      fun s h => ⟨(silent_ask hr).remove s h.silent, h.told⟩, fun s h => ⟨(silent_ask hr).unvent s h.silent, h.told⟩⟩
  vent r c s _ _ h := ⟨silent_startVent c (fun e => nomatch e) h.silent, h.told⟩
  cursor _ _ s _ h := ⟨silent_of_air h.silent rfl rfl, h.told⟩
  regulator _ _ s _ _ h := ⟨silent_of_air h.silent rfl rfl, h.told⟩
  fault _ _ s _ h := ⟨silent_of_air h.silent rfl rfl, h.told⟩
  airFault r k s hr h := by
    refine ⟨silent_of_air h.silent (by rw [raiseSeat_touches]) (by rw [raiseSeat_touches]), fun m hm he => ?_⟩
    exact (mem_raiseSeat_other (p := ⟨.airFault, some x, d⟩) (rank_ne_of_seat (n := ⟨.airFault, some r.seat, k⟩) rfl
      fun e => hr (Option.some.inj e).symm)).mpr (h.told m hm he)
  programEnd y k s _ h := by
    refine ⟨silent_of_air h.silent (by rw [raiseSeat_touches]) (by rw [raiseSeat_touches]), fun m hm he => ?_⟩
    exact (mem_raiseSeat_other (rank_ne_of_kind _ _ (fun e => by cases e))).mpr (h.told m hm he)
  read i s h := by
    refine ⟨silent_of_air h.silent (by rw [readRecord_touches]) (by rw [readRecord_touches]), fun m hr he => ?_⟩
    rcases readRecord_notices s i with e | ⟨n, hn, e⟩
    · rw [e]
      exact h.told m hr he
    · rw [e]
      exact deliver_keeps s n _ true .gateway m (h.told m hr he) (by rw [hn]; exact fun e => by cases e)
  take r rest s e h := by
    obtain ⟨all, hr, hs⟩ := h.silent.reports
    rw [hr, List.nil_append] at e
    exact ⟨⟨h.silent.queued, h.silent.held, ⟨rest, rfl, fun w hw => hs w (by rw [e]; exact List.mem_cons_of_mem _ hw)⟩, h.silent.ops⟩,
      h.told⟩
  underfill y m rest s e _ h := by
    obtain ⟨all, hr, hs⟩ := h.silent.reports
    rw [hr, List.nil_append] at e
    exact ⟨⟨h.silent.queued, h.silent.held, ⟨rest, rfl, fun w hw => hs w (by rw [e]; exact List.mem_cons_of_mem _ hw)⟩, h.silent.ops⟩,
      h.told⟩
  inert w rest s e hw h := by
    obtain ⟨all, hr, hs⟩ := h.silent.reports
    rw [hr, List.nil_append] at e
    exact absurd (hs w (by rw [e]; exact List.mem_cons_self ..)) hw

/-- The AIR FAULT of a massage fill, and its RELIEF vent, stand where nothing else of the seat waits (spec/07 R151, spec/05 R106). -/
theorem taken_fill_told {f : State → State} {code : FaultCode} (h : s.awake) (e : f s = finishFill g how v) (hv : v.reports = [])
    (hr : g.entry.requester = .massage x) (hh : how.fault = some code) (hf : (v.cursor x).fillPhase = true)
    (hq : ∀ e ∈ v.pneu.queue, e.requester.seat ≠ x) :
    ∃ t, taken f s = .next t ∧ t.pneu.opsOf (.relief x) = (endFill g how v).pneu.opsOf (.relief x) ∧
      v.told t .airFault x (.massageFault code (v.cursor x).stepOrZero) none := by
  obtain ⟨-, queue, holder, -⟩ := endFill_keeps g how v
  have begun : (endFill g how v).silent x [.ended g.entry.requester how] ((endFill g how v).pneu.opsOf (.relief x)) := by
    refine ⟨by rw [queue]; exact hq, fun e he => ?_, ⟨[], by rw [mem_reports_endFill, hv]; rfl, fun _ m => (nomatch m)⟩, rfl⟩
    rw [holder] at he
    cases he
  have released : (finishFill g how v).silent x [.ended g.entry.requester how] ((endFill g how v).pneu.opsOf (.relief x)) :=
    silent_arb.release begun
  have rests := finishFill_rests (g := g) (how := how) (x := x) hv
  have access : (finishFill g how v).access = v.access :=
    access_of_bystander (stirs_finishFill (P := fun _ => True) (.same v) g how).bystander
  obtain ⟨t, ht, law, -⟩ := taken_finish (hushed_keep (x := x) (ops := (endFill g how v).pneu.opsOf (.relief x))
    (d := .massageFault code (v.cursor x).stepOrZero) (p := v)) h e hv fun rest first => by
      let u : State := { finishFill g how v with reports := rest }
      have cursor : u.cursor x = v.cursor x := rests.cursor
      have still : u.silent x [] ((endFill g how v).pneu.opsOf (.relief x)) := by
        obtain ⟨all, hall, hs⟩ := released.reports
        rw [first] at hall
        cases hall
        exact ⟨released.queued, released.held, ⟨_, rfl, hs⟩, released.ops⟩
      have outcome : takeReport (.ended g.entry.requester how) u = enterFault x code u := by
        rw [hr]
        exact cursorOutcome_faults hh (by rw [cursor]; exact hf)
      rw [outcome]
      unfold enterFault
      dsimp only
      rw [withdrawCursor_absent_of (s := u) (still.absent rfl), cursor]
      have moved : State.silent x [] ((endFill g how v).pneu.opsOf (.relief x)) (u.modCursor x (Cursor.faulted code)) :=
        silent_of_air still rfl rfl
      have vented := silent_arb.requestVent (r := .massage x) massageCells (by decide)
        (fun w hw => silent_startVent massageCells (fun e => nomatch e) hw) moved
      refine ⟨silent_of_air vented (by rw [raiseSeat_touches]) (by rw [raiseSeat_touches]), fun k hk he => ?_⟩
      refine raiseSeat_reaches _ _ _ _ _ k ?_ he
      unfold State.mayRead at hk ⊢
      have same := access_of_bystander (stirs_requestVent (P := fun _ => True) (.same (u.modCursor x (Cursor.faulted code)))
        (.massage x) massageCells).bystander
      rw [same, show (u.modCursor x (Cursor.faulted code)).access = v.access from access]
      exact hk
  exact ⟨t, ht, law.silent.ops, law.told⟩

end

end

end Sys2Proof.Machine
end
section
/-! PROOFS. MANIFOLD_SAMPLE, SELECTOR_ARRIVAL and the fill's timers at a massage fill (O43, O44). -/
namespace Sys2Proof.Machine

/-! ## The fills that a SET SUPPORT of the moment has ended -/

theorem burstCut_still {x : Seat} {s : State} (judged : CellSet) (h : (s.regulator x).cuts = Four.all none) : burstCut x judged s = s := by
  have cell (c : HoldCell) : burstCell x judged s c = s := by
    unfold burstCell
    rw [h]
    cases c <;> rfl
  unfold burstCut holdCells
  simp only [List.foldl_cons, List.foldl_nil, cell]

theorem leakCut_still {x : Seat} {s : State} (h : (s.regulator x).cuts = Four.all none) : leakCut x s = s := by
  have cell (c : HoldCell) : leakCell x s c = s := by
    unfold leakCell
    rw [h]
    cases c <;> rfl
  unfold leakCut holdCells
  simp only [List.foldl_cons, List.foldl_nil, cell]

/-- The end of a fill leaves the regulators to take its outcome. -/
theorem regulators_finishFill (g : Holder) (how : FillEnd) (s : State) : (finishFill g how s).regulators = s.regulators := by
  have keep : ArbKeep (fun u => u.regulators = s.regulators) :=
    { grant := fun _ _ _ _ h => h
      ended := fun g how u _ _ h => by
        refine Eq.trans ?_ h
        unfold endFill
        dsimp only
        split <;> rfl
      requeued := fun _ _ _ h => h }
  refine keep.release ?_
  unfold endFill
  dsimp only
  split <;> rfl

/-! ## MANIFOLD_SAMPLE (spec/05 R87, R103, R106) -/

section

variable {s : State} {l r : Int}

theorem judgeFill_rest (h : ∀ g, s.pneu.holder = some g → g.p0 = none ∨ judgeSample g (s.manifoldOf g.seat) = none) : judgeFill s = s := by
  unfold judgeFill
  split
  · rename_i g hg
    split
    · rename_i hp
      rw [(h g hg).resolve_left fun e => by rw [e] at hp; cases hp]
    · rfl
  · rfl

theorem judgeFill_ends {g : Holder} {how : FillEnd} (hg : s.pneu.holder = some g) (hp : g.p0 ≠ none)
    (hj : judgeSample g (s.manifoldOf g.seat) = some how) : judgeFill s = finishFill g how s := by
  unfold judgeFill
  rw [hg]
  dsimp only
  rw [if_pos (Option.isSome_iff_ne_none.mpr hp), hj]

theorem regulators_judgeFill : (judgeFill s).regulators = s.regulators := by
  unfold judgeFill
  split
  · split
    · split
      · exact regulators_finishFill _ _ _
      · rfl
    · rfl
  · rfl

/-- Where no ended fill is kept a sample judges the fill in progress alone. -/
theorem sampleManifolds_eq (hc : ∀ x, (s.regulator x).cuts = Four.all none) :
    sampleManifolds l r s = judgeFill (storeSamples l r s) := by
  have cuts (x : Seat) : ((judgeFill (storeSamples l r s)).regulator x).cuts = Four.all none := by
    unfold State.regulator
    rw [regulators_judgeFill]
    exact hc x
  unfold sampleManifolds
  dsimp only
  rw [burstCut_still (x := .left) _ (cuts .left), burstCut_still (x := .right) _ (cuts .right)]

end

/-- The RELIEF vent that a burst begins over the fill's cells. -/
theorem opsOf_endFill_burst {g : Holder} {v : State} {m : Nat} (hc : g.entry.cells ≠ 0) :
    (endFill g (.overpressure m) v).pneu.opsOf (.relief g.seat) = [⟨.relief g.seat, g.entry.cells, v.ventWindow⟩] :=
  opsOf_startVent_same _ _ (v.modPneu fun p => { p with compressor := false, holder := none, parkNone := v.parksNowhere }) hc

theorem judgeSample_below {g : Holder} {m : Nat} (h5 : m < 500) (ht : m < g.entry.target) : judgeSample g m = none := by
  unfold judgeSample
  rw [if_neg (by omega), if_neg (by omega)]

theorem judgeSample_done {g : Holder} {m : Nat} (h5 : m < 500) (ht : g.entry.target ≤ m) : judgeSample g m = some (.done false m) := by
  unfold judgeSample
  rw [if_neg (by omega), if_pos ht]

theorem judgeSample_burst {g : Holder} {m : Nat} (h5 : 500 ≤ m) : judgeSample g m = some (.overpressure m) := if_pos h5

theorem fillPhase_filling {c : Cursor} (hr : c.state = .running) (hp : c.phase = .filling) : c.fillPhase = true := fillPhase_of hr (.inr hp)

/-- Settles O43: what a sample of the holder's seat makes of its massage fill. -/
theorem manifoldSampleJudges : Obligations.ManifoldSampleJudges := by
  intro l r s h hc kept released
  have effect : sampleManifolds l r s = judgeFill kept := sampleManifolds_eq hc
  have still (e : judgeFill kept = kept) : exec (.manifoldSample l r) s = .next kept := by
    show taken (sampleManifolds l r) s = _
    rw [← effect.trans e]
    exact taken_quiet _ s h (by rw [effect.trans e]; exact h.2.1) (by rw [effect.trans e]; exact h.2.2)
  refine ⟨fun hp => still (judgeFill_rest fun g hg => .inl (hp g hg)), fun g hg h5 ht => still (judgeFill_rest fun k hk => ?_),
    fun g x hg hp hr h5 ht hs hf hd => ?_, fun g x hg hp hr hcells h5 hs hf => ?_⟩
  · cases Option.some.inj (hg.symm.trans hk)
    exact .inr (judgeSample_below h5 ht)
  · have seat : g.seat = x := congrArg Requester.seat hr
    have ends := effect.trans (judgeFill_ends hg hp (judgeSample_done (by rw [seat]; exact h5) (by rw [seat]; exact ht)))
    obtain ⟨t, taken, cursor, -, same, absent, rests⟩ := taken_fill_dwells (x := x) (v := kept) (atStart := false) h ends h.2.1 h.2.2 hr
      rfl (fillPhase_filling hs hf) hd
    exact ⟨t, taken, cursor, same, fun laws => (absent (by rw [← hr]; exact (laws.2.2.1 g hg).2.2)).2, rests⟩
  · have seat : g.seat = x := congrArg Requester.seat hr
    have ends := effect.trans (judgeFill_ends hg hp (judgeSample_burst (by rw [seat]; exact h5)))
    obtain ⟨t, taken, cursor, same, absent, rests⟩ := taken_fill_faults (x := x) (v := kept) (code := .overpressure) h ends h.2.1 h.2.2
      hr rfl (fillPhase_filling hs hf)
    refine ⟨t, taken, by rw [cursor]; rfl, by rw [cursor]; rfl, same,
      ⟨fun laws => (absent (by rw [← hr]; exact (laws.2.2.1 g hg).2.2)).2, rests⟩, fun laws => ?_, fun alone => ?_⟩
    · obtain ⟨u, hu, op, hop, owner, left⟩ := taken_burst_relieved h ends h.2.1 hcells fun e he => (laws.2.2.2.1 e he).1
      cases Host.Outcome.next.inj (taken.symm.trans hu)
      exact ⟨op, hop, by rw [owner, seat], left⟩
    · obtain ⟨u, hu, ops, told⟩ := taken_fill_told (x := x) (v := kept) (code := .overpressure) h ends h.2.1 hr rfl
        (fillPhase_filling hs hf) alone
      cases Host.Outcome.next.inj (taken.symm.trans hu)
      rw [← seat, opsOf_endFill_burst (v := kept) hcells] at ops
      refine ⟨?_, told⟩
      rw [← seat]
      exact (mem_opsOf.mp (ops ▸ List.mem_singleton.mpr rfl : _ ∈ t.pneu.opsOf (.relief g.seat))).1

/-! ## SELECTOR_ARRIVAL (spec/05 R88, R101, R102) -/

/-- The part whose selector has come to rest. -/
def State.arrived (s : State) (p : SelPos) : State := s.modPneu fun a => { a with selector := .atRest p }

section

variable {s : State} {p : SelPos} {g : Holder}

theorem arriveSelector_rest (hm : s.pneu.selector = .moving p 0) (h : ∀ g, s.pneu.holder = some g →
    g.p0 ≠ none ∨ seatPos g.seat ≠ p ∨ ventedCells s.pneu.vents g.seat &&& g.entry.cells ≠ 0) : arriveSelector s = s.arrived p := by
  have held : (s.arrived p).pneu.holder = s.pneu.holder := rfl
  unfold arriveSelector
  rw [hm]
  dsimp only
  split
  · rename_i g hg
    refine if_neg fun k => ?_
    obtain ⟨free, seat, clear⟩ := k
    rcases h g hg with e | e | e
    · exact e (Option.isNone_iff_eq_none.mp free)
    · exact e seat
    · exact e (of_decide_eq_true ((eligible_eq _ _).symm.trans clear))
  · rfl

theorem arriveSelector_begins (hm : s.pneu.selector = .moving p 0) (hg : s.pneu.holder = some g) (hp : g.p0 = none)
    (hs : seatPos g.seat = p) (hv : ventedCells s.pneu.vents g.seat &&& g.entry.cells = 0) :
    arriveSelector s = beginFilling g (s.arrived p) := by
  have held : (s.arrived p).pneu.holder = some g := hg
  unfold arriveSelector
  rw [hm]
  show (match (s.arrived p).pneu.holder with
    | some h => if h.p0.isNone ∧ seatPos h.seat = p ∧ eligible (s.arrived p).pneu h.entry = true then beginFilling h (s.arrived p)
      else s.arrived p
    | none => s.arrived p) = _
  rw [held]
  exact if_pos ⟨by rw [hp]; rfl, hs, (eligible_eq _ _).trans (decide_eq_true hv)⟩

end

/-! ## The fill's timers (spec/05 R104, R105) -/

section

variable {s : State} {g : Holder}

theorem expireRise_rest (hc : ∀ x, (s.regulator x).cuts = Four.all none)
    (h : ∀ g, s.pneu.holder = some g → g.p0 = none ∨ g.riseTimer ≠ some 0) : expireRise s = s := by
  have cuts : leakCut .right (leakCut .left s) = s := by rw [leakCut_still (hc .left), leakCut_still (hc .right)]
  unfold expireRise
  split
  · rename_i g hg
    split
    · rename_i p0 hp ht
      exact ((h g hg).elim (fun e => by rw [e] at hp; cases hp) fun e => absurd ht e)
    · exact cuts
  · exact cuts

theorem expireRise_due {p0 : Nat} (hg : s.pneu.holder = some g) (hp : g.p0 = some p0) (ht : g.riseTimer = some 0) : expireRise s =
    if leaks g.entry.target p0 (s.manifoldOf g.seat) then finishFill g (.leak (s.manifoldOf g.seat)) s
    else s.modPneu fun p => { p with holder := some { g with riseTimer := none } } := by
  unfold expireRise
  rw [hg]
  dsimp only
  rw [hp, ht] <;> rfl

theorem expireFill_rest (h : ∀ g, s.pneu.holder = some g → g.p0 = none ∨ g.fillTimer ≠ some 0) : expireFill s = s := by
  unfold expireFill
  split
  · rename_i g hg
    refine if_neg fun k => ?_
    rcases h g hg with e | e
    · rw [e] at k
      cases k
    · exact e (by simpa using (Bool.and_eq_true_iff.mp k).2)
  · rfl

theorem expireFill_due (hg : s.pneu.holder = some g) (hp : g.p0 ≠ none) (ht : g.fillTimer = some 0) :
    expireFill s = finishFill g (.underfill (s.manifoldOf g.seat)) s := by
  unfold expireFill
  rw [hg]
  dsimp only
  rw [ht, Option.isSome_iff_ne_none.mpr hp]
  rfl

end

/-- Settles O44: the arriving selector's start check, the rise window and the maximum fill time. -/
theorem fillTimersAndArrival : Obligations.FillTimersAndArrival := by
  unfold Obligations.FillTimersAndArrival
  intro released
  have frees {x : Seat} {s t : State} {g : Holder} (hg : s.pneu.holder = some g) (hr : g.entry.requester = .massage x)
      (absent : (∀ e ∈ s.pneu.queue, e.requester ≠ .massage x) → t.absent (.massage x))
      (rests : s.pneu.queue = [] → t.pneu.holder = none ∧ t.pneu.compressor = false) : released x s t :=
    ⟨fun laws => (absent (by rw [← hr]; exact (laws.2.2.1 g hg).2.2)).2, rests⟩
  refine ⟨fun s h => ⟨fun p hp => taken_still h ?_, fun p left hp hl => taken_still h ?_, fun p hp hn => ?_,
    fun p g hp hg h0 hseat hv => ?_⟩, fun s h hc => ⟨fun hn => taken_still h ?_, fun g p0 hg hp ht hok => ?_,
    fun g p0 hg hp ht x hr hlow hleak hs hf => ?_⟩, fun s h => ⟨fun hn => taken_still h ?_, fun g x hg hp ht hr hs hf hd => ?_⟩⟩
  · unfold arriveSelector
    rw [hp]
  · unfold arriveSelector
    obtain ⟨k, rfl⟩ : ∃ k, left = k + 1 := ⟨left - 1, by omega⟩
    rw [hp]
  · have effect := arriveSelector_rest hp hn
    show taken arriveSelector s = .next (s.arrived p)
    rw [← effect]
    exact taken_quiet _ s h (by rw [effect]; exact h.2.1) (by rw [effect]; exact h.2.2)
  · intro m
    have begins := arriveSelector_begins hp hg h0 hseat hv
    have starts (how : FillEnd) (hw : startCheck g m = some how) :
        arriveSelector s = finishFill g how (takeP0 g (s.arrived p)) := by
      rw [begins]
      unfold beginFilling
      rw [show startCheck g ((s.arrived p).manifoldOf g.seat) = some how from hw]
    have same : (takeP0 g (s.arrived p)).bystander = s.bystander := (bystander_modPneu (s.arrived p) _ rfl).trans (bystander_modPneu s _ rfl)
    refine ⟨fun h5 hlow => ?_, fun x hr hs hf => ⟨fun h5 hdone hd => ?_, fun h5 hcells => ?_⟩⟩
    · have effect : arriveSelector s = startCompressor (takeP0 g (s.arrived p)) := by
        have none_ : startCheck g ((s.arrived p).manifoldOf g.seat) = none := (if_neg (Nat.not_le.mpr h5)).trans (if_neg (Nat.not_le.mpr hlow))
        rw [begins]
        unfold beginFilling
        rw [none_]
      refine (taken_quiet arriveSelector s h (by rw [effect]; exact h.2.1) (by rw [effect]; exact h.2.2)).trans ?_
      rw [effect]
      rfl
    · have ends := starts (.done true m) ((if_neg (Nat.not_le.mpr h5)).trans (if_pos hdone))
      obtain ⟨t, taken, cursor, -, stands, absent, rests⟩ := taken_fill_dwells (x := x) (atStart := true) h ends h.2.1 h.2.2 hr rfl
        (fillPhase_filling hs hf) hd
      exact ⟨t, taken, cursor, stands.trans same, frees hg hr absent rests⟩
    · have ends := starts (.overpressure m) (if_pos h5)
      have seat : g.seat = x := congrArg Requester.seat hr
      obtain ⟨t, taken, cursor, stands, absent, rests⟩ := taken_fill_faults (x := x) (code := .overpressure) h ends h.2.1 h.2.2 hr rfl
        (fillPhase_filling hs hf)
      refine ⟨t, taken, by rw [cursor]; rfl, by rw [cursor]; rfl, stands.trans same, frees hg hr absent rests, fun alone => ?_⟩
      obtain ⟨u, hu, ops, -⟩ := taken_fill_told (x := x) (code := .overpressure) h ends h.2.1 hr rfl (fillPhase_filling hs hf) alone
      cases Host.Outcome.next.inj (taken.symm.trans hu)
      rw [← seat, opsOf_endFill_burst hcells] at ops
      rw [← seat]
      exact (mem_opsOf.mp (ops ▸ List.mem_singleton.mpr rfl : _ ∈ t.pneu.opsOf (.relief g.seat))).1
  · exact expireRise_rest hc hn
  · have passes : leaks g.entry.target p0 (s.manifoldOf g.seat) ≠ true := fun k => by
      obtain ⟨low, leak⟩ := (leaks_iff _ _ _).mp k
      omega
    have effect := (expireRise_due hg hp ht).trans (if_neg passes)
    refine (taken_quiet expireRise s h (by rw [effect]; exact h.2.1) (by rw [effect]; exact h.2.2)).trans ?_
    rw [effect]
    rfl
  · have seat : g.seat = x := congrArg Requester.seat hr
    have ends := (expireRise_due hg hp ht).trans (if_pos ((leaks_iff _ _ _).mpr ⟨hlow, by rw [seat]; exact hleak⟩))
    obtain ⟨t, taken, cursor, stands, absent, rests⟩ := taken_fill_faults (x := x) (code := .leak) h ends h.2.1 h.2.2 hr rfl
      (fillPhase_filling hs hf)
    refine ⟨t, taken, by rw [cursor]; rfl, by rw [cursor]; rfl, stands, frees hg hr absent rests, fun alone => ?_⟩
    obtain ⟨u, hu, -, told⟩ := taken_fill_told (x := x) (code := .leak) h ends h.2.1 hr rfl (fillPhase_filling hs hf) alone
    cases Host.Outcome.next.inj (taken.symm.trans hu)
    exact told
  · exact expireFill_rest hn
  · have ends := expireFill_due hg hp ht
    obtain ⟨t, taken, cursor, count, stands, absent, rests⟩ := taken_fill_dwells (x := x) (atStart := false) h ends h.2.1 h.2.2 hr rfl
      (fillPhase_filling hs hf) hd
    exact ⟨t, taken, count, cursor, stands, frees hg hr absent rests⟩

end Sys2Proof.Machine
end
section
/-! PROOFS. A holding cell that is neither served nor to be filled: its need, setpoint, mark and vent stand, whatever its regulator
does with the other cells (for O16 and O45). -/
namespace Sys2Proof.Machine

/-- What is said of a holding cell. -/
structure CellFacts where
  need : Need
  setpoint : Setting
  mark : Bool
  cut : Option CutFill

def State.cellFacts (s : State) (x : Seat) (c : HoldCell) : CellFacts :=
  ⟨s.need x c, s.setpoint x c, s.faultMark x c, (s.regulator x).cuts.get c⟩

/-- The cell is not in service, no VENT COMPLETE of its regulator is open, and where `b` holds a vent over it runs a full window. -/
structure State.cellStands (x : Seat) (c : HoldCell) (k : CellFacts) (w : Nat) (b : Prop) (s : State) : Prop where
  facts : s.cellFacts x c = k
  served : (s.regulator x).service.cell ≠ some c
  unreported : s.unreported (.support x)
  window : s.ventWindow = w
  covered : b → ∃ op ∈ s.pneu.opsOf (.requester (.support x)), op.cells.getLsbD (cellNumber c) = true ∧ op.left = w

section

variable {x : Seat} {c : HoldCell} {k : CellFacts} {w : Nat} {b : Prop} {s : State}

theorem State.cellStands.need (h : s.cellStands x c k w b) : s.need x c = k.need := congrArg CellFacts.need h.facts
theorem State.cellStands.setpoint (h : s.cellStands x c k w b) : s.setpoint x c = k.setpoint := congrArg CellFacts.setpoint h.facts
theorem State.cellStands.mark (h : s.cellStands x c k w b) : s.faultMark x c = k.mark := congrArg CellFacts.mark h.facts
theorem State.cellStands.cut (h : s.cellStands x c k w b) : (s.regulator x).cuts.get c = k.cut := congrArg CellFacts.cut h.facts

theorem State.cellStands.op (h : s.cellStands x c k w b) (hb : b) :
    ∃ op ∈ s.pneu.vents, op.owner = .requester (.support x) ∧ op.cells.getLsbD (cellNumber c) = true ∧ op.left = w := by
  obtain ⟨op, own, bit, left⟩ := h.covered hb
  exact ⟨op, (mem_opsOf.mp own).1, (mem_opsOf.mp own).2, bit, left⟩

/-! ## The arbiter, and the requests -/

theorem cellStands_arb : ArbKeep (State.cellStands x c k w b) where
  releases r s _ h := ⟨h.facts, h.served, h.unreported, h.window, h.covered⟩
  pass s h := by
    rw [passCore_touches]
    exact ⟨h.facts, h.served, h.unreported, h.window, h.covered⟩
  tune f s _ hv _ h := by
    refine ⟨h.facts, h.served, h.unreported, h.window, fun hb => ?_⟩
    show ∃ op ∈ List.filter _ (f s.pneu).vents, _
    rw [hv]
    exact h.covered hb
  grant e s hn hm h := by
    refine ⟨h.facts, h.served, (unreported_keep _).grant e s hn hm h.unreported, h.window, fun hb => ?_⟩
    unfold Pneumatic.opsOf
    rw [vents_grantEntry]
    exact h.covered hb
  ended g how s hh ha h := by
    have facts : (endFill g how s).cellFacts x c = s.cellFacts x c ∧ (endFill g how s).regulators = s.regulators ∧
        (endFill g how s).ventWindow = s.ventWindow := by
      unfold endFill
      dsimp only
      split <;> exact ⟨rfl, rfl, rfl⟩
    obtain ⟨facts, regulators, window⟩ := facts
    refine ⟨facts.trans h.facts, ?_, (unreported_keep _).ended g how s hh ha h.unreported, window.trans h.window, fun hb => ?_⟩
    · unfold State.regulator
      rw [regulators]
      exact h.served
    · rw [opsOf_endFill g how s fun _ e => by cases e]
      exact h.covered hb
  requeued g s hg h := ⟨h.facts, h.served, (unreported_keep _).requeued g s hg h.unreported, h.window, h.covered⟩

theorem cellStands_fill (q : Requester) : MayFill (State.cellStands x c k w b) q where
  replace _ _ _ _ _ h := ⟨h.facts, h.served, h.unreported, h.window, h.covered⟩
  rehold _ _ _ _ h := ⟨h.facts, h.served, h.unreported, h.window, h.covered⟩
  append _ _ _ _ h := ⟨h.facts, h.served, h.unreported, h.window, h.covered⟩
  remove _ h := ⟨h.facts, h.served, h.unreported, h.window, h.covered⟩

theorem cellStands_ask {q : Requester} (hq : q ≠ .support x) : MayAsk (State.cellStands x c k w b) q where
  replace := (cellStands_fill q).replace
  rehold := (cellStands_fill q).rehold
  append := (cellStands_fill q).append
  remove := (cellStands_fill q).remove
  unvent s h := by
    refine ⟨h.facts, h.served, h.unreported, h.window, fun hb => ?_⟩
    rw [show (s.modPneu fun p => { p with vents := dropVent (.requester q) p.vents }).pneu.opsOf (.requester (.support x)) = _ from
      filter_dropVent_other _ fun e => hq (VentOwner.requester.inj e)]
    exact h.covered hb

theorem cellStands_startVent_other {o : VentOwner} (a : CellSet) (ho : o ≠ .requester (.support x)) (h : s.cellStands x c k w b) :
    (startVent o a s).cellStands x c k w b := by
  refine ⟨h.facts, h.served, h.unreported, h.window, fun hb => ?_⟩
  rw [opsOf_startVent_other a s ho]
  exact h.covered hb

/-- The regulator's own vent over the cell. -/
theorem cellStands_startVent {a : CellSet} {d : Prop} (ha : a ≠ 0) (hc : d → a.getLsbD (cellNumber c) = true)
    (h : s.cellStands x c k w b) : (startVent (.requester (.support x)) a s).cellStands x c k w d := by
  refine ⟨h.facts, h.served, h.unreported, h.window, fun hd => ?_⟩
  rw [opsOf_startVent_same _ a s ha]
  exact ⟨_, List.mem_singleton.mpr rfl, hc hd, h.window⟩

/-! ## The regulator's other cells -/

/-- What a change of the regulator that leaves the cell alone keeps. -/
theorem State.cellStands.regulated (h : s.cellStands x c k w b) (g : Regulator → Regulator)
    (needs : (g (s.regulator x)).needs.get c = (s.regulator x).needs.get c)
    (marks : (g (s.regulator x)).marks.get c = (s.regulator x).marks.get c)
    (cuts : (g (s.regulator x)).cuts.get c = (s.regulator x).cuts.get c)
    (service : (g (s.regulator x)).service.cell ≠ some c) : (s.modRegulator x g).cellStands x c k w b := by
  have own : (s.modRegulator x g).regulator x = g (s.regulator x) := State.regulator_modRegulator s x g
  refine ⟨Eq.trans ?_ h.facts, by rw [own]; exact service, h.unreported, h.window, h.covered⟩
  unfold State.cellFacts State.need State.faultMark
  rw [own, needs, marks, cuts]
  rfl

theorem State.cellStands.serviced (h : s.cellStands x c k w b) {v : Service} (hv : v.cell ≠ some c) : (s.setService x v).cellStands x c k w b :=
  h.regulated _ rfl rfl rfl hv

/-- A change at the other seat. -/
theorem State.cellStands.regulated_other (h : s.cellStands x c k w b) {y : Seat} (hy : x ≠ y) (g : Regulator → Regulator) :
    (s.modRegulator y g).cellStands x c k w b := by
  have own : (s.modRegulator y g).regulator x = s.regulator x := State.regulator_modRegulator_other s y x g hy
  refine ⟨Eq.trans ?_ h.facts, by rw [own]; exact h.served, h.unreported, h.window, h.covered⟩
  unfold State.cellFacts State.need State.faultMark
  rw [own]
  rfl

theorem State.cellStands.stored_other (h : s.cellStands x c k w b) {y : Seat} {d : HoldCell} (hd : ¬ (x = y ∧ c = d)) (v : Setting) :
    (s.setSetpoint y d v).cellStands x c k w b := by
  refine ⟨Eq.trans ?_ h.facts, h.served, h.unreported, h.window, h.covered⟩
  unfold State.cellFacts
  rw [setpoint_setSetpoint_other s y x d c v hd]
  rfl

theorem State.cellStands.raised (h : s.cellStands x c k w b) (n : NoticeKind) (y : Seat) (d : Detail) (e : Option Master) :
    (raiseSeat n y d e s).cellStands x c k w b := by
  rw [raiseSeat_touches]
  exact ⟨h.facts, h.served, h.unreported, h.window, h.covered⟩

/-- The next cell has the need FILL. -/
theorem need_nextCell {r : Regulator} {d : HoldCell} (h : r.nextCell = some d) : r.needs.get d = .fill := by
  simpa using List.find?_some h

section

variable (hn : k.need ≠ .fill)
include hn

theorem cellStands_selectCell (h : s.cellStands x c k w b) : (selectCell x s).cellStands x c k w b := by
  unfold selectCell
  split
  · split
    · rename_i d hd
      have other : d ≠ c := fun e => hn (h.need.symm.trans ((congrArg _ e.symm).trans (need_nextCell hd)))
      exact cellStands_arb.requestFill (cellStands_fill _) _ _ (cellBit_ne_zero d)
        (h.serviced fun e => other (Option.some.inj e))
    · exact h
  · exact h

omit hn in
/-- A cell joins the venting set, which the vent is over (spec/08 R159, R161). -/
theorem cellStands_joinVent {d : HoldCell} {e : Prop} (he : e → k.need = .vent) (h : (s.setNeed x d .vent).cellStands x c k w b) :
    (joinVent x d s).cellStands x c k w e := by
  have cells : ((s.setNeed x d .vent).regulator x).needs.get d = .vent := by
    rw [State.setNeed, State.regulator_modRegulator, Four.get_set_same]
  have some_ := ventingSet_ne_zero cells
  have freed : (State.freedFor (s.setNeed x d .vent) (.support x) ((s.setNeed x d .vent).regulator x).ventingSet).cellStands x c k w b :=
    cellStands_arb.freedFor _ h
  have begun := cellStands_startVent (d := e) some_ (fun hv => by
    rw [ventingSet_getLsbD]
    exact decide_eq_true (h.need.trans (he hv))) freed
  unfold joinVent
  dsimp only
  rw [requestVent_eq some_]
  split
  · exact cellStands_arb.select begun
  · exact begun

omit hn in
theorem State.cellStands.needed_other (h : s.cellStands x c k w b) {d : HoldCell} (hd : c ≠ d) (n : Need) :
    (s.setNeed x d n).cellStands x c k w b := h.regulated _ (Four.get_set_other _ _ _ _ hd) rfl rfl h.served

omit hn in
theorem cellStands_faultCell {d : HoldCell} (hb : b → k.need = .vent) (hd : c ≠ d) (o : CellOutcome) (h : s.cellStands x c k w b) :
    (faultCell x d o s).cellStands x c k w b := by
  refine (cellStands_joinVent hb (State.cellStands.needed_other (b := b) ?_ hd _)).raised _ _ _ _
  exact (h.stored_other (fun e => hd e.2) _).regulated _ rfl (Four.get_set_other _ _ _ _ hd) rfl h.served

omit hn in
/-- The cell's own fault, once it is no longer served (spec/08 R164). -/
theorem faultCell_stands (o : CellOutcome) (hs : (s.regulator x).service.cell ≠ some c) (hr : s.unreported (.support x)) :
    (faultCell x c o s).cellStands x c ⟨.vent, ⟨0, .device⟩, true, (s.regulator x).cuts.get c⟩ s.ventWindow True := by
  let u := (s.setSetpoint x c ⟨0, .device⟩).modRegulator x fun r => { r with marks := r.marks.set c true }
  have own : (u.setNeed x c .vent).regulator x =
      { s.regulator x with marks := (s.regulator x).marks.set c true, needs := (s.regulator x).needs.set c .vent } := by
    unfold State.setNeed
    rw [State.regulator_modRegulator, State.regulator_modRegulator]
    rfl
  have facts : (u.setNeed x c .vent).cellFacts x c = ⟨.vent, ⟨0, .device⟩, true, (s.regulator x).cuts.get c⟩ := by
    unfold State.cellFacts State.need State.faultMark
    rw [own]
    dsimp only
    rw [Four.get_set_same, Four.get_set_same]
    exact congrArg (CellFacts.mk .vent · true _) (State.setpoint_setSetpoint s x c _)
  have marked : (u.setNeed x c .vent).cellStands x c ⟨.vent, ⟨0, .device⟩, true, (s.regulator x).cuts.get c⟩ s.ventWindow False :=
    ⟨facts, by rw [own]; exact hs, hr, rfl, False.elim⟩
  exact (cellStands_joinVent (fun _ => rfl) marked).raised _ _ _ _

/-! ## The reports -/

omit hn in
theorem need_setpoint_needAfterVent {d : HoldCell} (h : s.need x d ≠ .vent) : needAfterVent s x d = s.need x d := if_neg h

/-- What the regulator does with a report of another cell's fill. -/
theorem cellStands_takeReport {r : Report} (hr : r.requester = .support x) (hv : r ≠ .ventComplete (.support x))
    (hb : b → k.need = .vent) (h : s.cellStands x c k w b) : (takeReport r s).cellStands x c k w b := by
  cases r with
  | granted q =>
    cases hr
    show (supportGranted x s).cellStands x c k w b
    unfold supportGranted
    split
    · rename_i d hd
      have other := h.served
      rw [hd] at other
      exact h.serviced other
    all_goals exact h
  | ended q how =>
    cases hr
    show (supportOutcome x how s).cellStands x c k w b
    unfold supportOutcome
    split
    · exact h
    · rename_i d hd
      have other : c ≠ d := fun e => h.served (by rw [hd, e])
      have free : (s.setService x .free).cellStands x c k w b := h.serviced fun e => nomatch e
      cases how with
      | done _ _ => exact cellStands_selectCell hn ((h.needed_other other _).serviced fun e => nomatch e)
      | underfill _ => exact cellStands_selectCell hn ((h.needed_other other _).serviced fun e => nomatch e)
      | leak _ => exact cellStands_selectCell hn (cellStands_faultCell hb other _ free)
      | overpressure _ => exact cellStands_selectCell hn (cellStands_faultCell hb other _ free)
      | withdrawn => exact h
      | suspend =>
        show (supportSuspended x s).cellStands x c k w b
        unfold supportSuspended
        split
        · rename_i e he
          have same := h.served
          rw [he] at same
          exact h.serviced same
        all_goals exact h
  | ventComplete q =>
    cases hr
    exact absurd rfl hv

/-- Whatever the other requesters do, and the regulator with its other cells, the cell stands. -/
theorem cellStands_keep (hb : b → k.need = .vent) : SettleKeep (· ≠ .support x) (State.cellStands x c k w b) where
  toArbKeep := cellStands_arb
  moment _ _ h := ⟨h.facts, h.served, h.unreported, h.window, h.covered⟩
  ask q hq := cellStands_ask hq
  vent q a s hq _ h := cellStands_startVent_other a (fun e => hq (VentOwner.requester.inj e)) h
  cursor y g s _ h := ⟨h.facts, h.served, h.unreported, h.window, h.covered⟩
  regulator y g s hy _ h := h.regulated_other (fun e => hy (by rw [e])) g
  fault y d s hy h :=
    (h.stored_other (fun e => hy (by rw [e.1])) _).regulated_other (fun e => hy (by rw [e])) _
  airFault r d s _ h := h.raised _ _ _ _
  programEnd y d s _ h := h.raised _ _ _ _
  read i s h := by
    rw [readRecord_touches]
    exact ⟨h.facts, h.served, h.unreported, h.window, h.covered⟩
  take r rest s e h := ⟨h.facts, h.served, fun m => h.unreported (by rw [e]; exact List.mem_cons_of_mem _ m), h.window, h.covered⟩
  underfill y m rest s e _ h := by
    refine ⟨Eq.trans ?_ h.facts, h.served, fun i => h.unreported (by rw [e]; exact List.mem_cons_of_mem _ i), h.window, h.covered⟩
    unfold State.cellFacts State.setpoint
    cases x <;> cases y <;> rfl
  inert r rest s e hr h := by
    have later : State.cellStands x c k w b { s with reports := rest } :=
      ⟨h.facts, h.served, fun m => h.unreported (by rw [e]; exact List.mem_cons_of_mem _ m), h.window, h.covered⟩
    exact cellStands_takeReport hn (Classical.not_not.mp hr) (fun i => h.unreported (by rw [e, i]; exact List.mem_cons_self ..)) hb later

end

/-! ## A cell to be vented -/

section

variable {p : Setting} {mark : Bool} {cut : Option CutFill}

theorem ventStands_keep : SettleKeep (· ≠ .support x) (State.cellStands x c ⟨.vent, p, mark, cut⟩ w True) :=
  cellStands_keep (fun e => nomatch e) fun _ => rfl

theorem ventStands_selectCell (h : s.cellStands x c ⟨.vent, p, mark, cut⟩ w b) :
    (selectCell x s).cellStands x c ⟨.vent, p, mark, cut⟩ w b := cellStands_selectCell (fun e => nomatch e) h

end

end

end Sys2Proof.Machine
end
section
/-! PROOFS. How the fill of a holding cell ends at its regulator (spec/08 R163, R164; for O45). -/
namespace Sys2Proof.Machine

/-! ## The release before the outcome is taken -/

section

variable {g : Holder} {how : FillEnd} {v : State} {x : Seat} {c : HoldCell}

/-- The arbiter leaves the seats' records. -/
theorem seats_arb (r : PerSeat SeatRecord) : ArbKeep (fun s => s.seats = r) where
  pass s h := by
    rw [passCore_touches]
    exact h
  grant _ _ _ _ h := h
  ended g how s _ _ h := by
    refine Eq.trans ?_ h
    unfold endFill
    dsimp only
    split <;> rfl
  requeued _ _ _ h := h

theorem seats_withdraw (r : Requester) (s : State) : (withdraw r s).seats = s.seats :=
  (seats_arb s.seats).withdraw ⟨fun _ _ _ _ _ h => h, fun _ _ _ _ h => h, fun _ _ _ _ h => h, fun _ h => h⟩ rfl

theorem seats_finishFill (g : Holder) (how : FillEnd) (s : State) : (finishFill g how s).seats = s.seats := by
  refine (seats_arb s.seats).release ?_
  unfold endFill
  dsimp only
  split <;> rfl

theorem bystander_finishFill (g : Holder) (how : FillEnd) (s : State) : (finishFill g how s).bystander = s.bystander :=
  (stirs_finishFill (P := fun _ => True) (.same s) g how).bystander

theorem unreported_finishFill {r : Requester} (h : v.unreported r) : (finishFill g how v).unreported r :=
  (unreported_keep r).release (unreported_append h mem_reports_endFill fun e => nomatch e)

theorem cellFacts_finishFill : (finishFill g how v).cellFacts x c = v.cellFacts x c := by
  unfold State.cellFacts State.need State.setpoint State.faultMark State.seat State.regulator
  rw [regulators_finishFill, seats_finishFill]

theorem ventWindow_finishFill : (finishFill g how v).ventWindow = v.ventWindow := param_of_bystander (bystander_finishFill g how v) 49

/-- With an empty queue the release begins no vent of its own. -/
theorem vents_finishFill (hq : v.pneu.queue = []) (hl : v.releases = .select) :
    (finishFill g how v).pneu.vents = (endFill g how v).pneu.vents := by
  obtain ⟨releases, queue, -, -⟩ := endFill_keeps g how v
  have alone : finishFill g how v = releaseTail (endFill g how v) :=
    release_empty (queue.trans hq) (by rw [releases, hl]; exact fun e => nomatch e)
  rw [alone]
  exact (congrArg Pneumatic.vents (releaseTail_keeps (endFill g how v)).2.2 :)

end

/-! ## No underfill is counted (spec/08 R163) -/

/-- The underfill counts are these, and no open report is a massage fill's UNDERFILL. -/
structure State.uncounted (v s : State) : Prop where
  counts : ∀ y, (s.seat y).underfill = (v.seat y).underfill
  open_ : ∀ y m, .ended (.massage y) (.underfill m) ∉ s.reports

section

variable {v s t : State}

theorem uncounted_report {r : Report} (h : v.uncounted s) (seats : ∀ y, (t.seat y).underfill = (s.seat y).underfill)
    (e : t.reports = s.reports ++ [r]) (hr : ∀ y m, r ≠ .ended (.massage y) (.underfill m)) : v.uncounted t := by
  refine ⟨fun y => (seats y).trans (h.counts y), fun y m i => ?_⟩
  rw [e] at i
  exact (List.mem_append.mp i).elim (h.open_ y m) fun k => hr y m (List.mem_singleton.mp k).symm

/-- An ending of a fill, but for a massage fill's UNDERFILL. -/
theorem uncounted_endFill {g : Holder} {how : FillEnd} (hw : ∀ y m, Report.ended g.entry.requester how ≠ .ended (.massage y) (.underfill m))
    (h : v.uncounted s) : v.uncounted (endFill g how s) := by
  refine uncounted_report h (fun y => ?_) mem_reports_endFill hw
  unfold endFill
  dsimp only
  split <;> rfl

theorem uncounted_keep : SettleKeep (fun _ => True) v.uncounted where
  releases _ _ _ h := ⟨h.counts, h.open_⟩
  moment _ _ h := ⟨h.counts, h.open_⟩
  pass s h := by
    rw [passCore_touches]
    exact ⟨h.counts, h.open_⟩
  tune _ _ _ _ _ h := ⟨h.counts, h.open_⟩
  grant e s _ _ h := uncounted_report (r := .granted e.requester) h (fun _ => rfl) rfl fun y m e => nomatch e
  ended g how s _ ha h := uncounted_endFill (fun y m e => by
    cases Report.ended.inj e |>.2
    exact ha) h
  requeued g s _ h := uncounted_report (r := .ended g.entry.requester .suspend) h (fun _ => rfl) rfl fun y m e => by
    cases Report.ended.inj e |>.2
  ask _ _ := ⟨fun _ _ _ _ _ h => ⟨h.counts, h.open_⟩, fun _ _ _ _ h => ⟨h.counts, h.open_⟩, fun _ _ _ _ h => ⟨h.counts, h.open_⟩,
    fun _ h => ⟨h.counts, h.open_⟩, fun _ h => ⟨h.counts, h.open_⟩⟩
  vent _ _ _ _ _ h := ⟨h.counts, h.open_⟩
  cursor _ _ _ _ h := ⟨h.counts, h.open_⟩
  regulator _ _ _ _ _ h := ⟨h.counts, h.open_⟩
  fault x _ s _ h := ⟨fun y => by
    refine Eq.trans ?_ (h.counts y)
    cases x <;> cases y <;> rfl, h.open_⟩
  airFault r d s _ h := by
    rw [raiseSeat_touches]
    exact ⟨h.counts, h.open_⟩
  programEnd y d s _ h := by
    rw [raiseSeat_touches]
    exact ⟨h.counts, h.open_⟩
  read i s h := by
    rw [readRecord_touches]
    exact ⟨h.counts, h.open_⟩
  take r rest s e h := ⟨h.counts, fun y m i => h.open_ y m (by rw [e]; exact List.mem_cons_of_mem _ i)⟩
  underfill x m rest s e _ h := absurd (by rw [e]; exact List.mem_cons_self ..) (h.open_ x m)
  inert _ _ _ _ hr _ := absurd trivial hr

end

/-! ## The outcome at the regulator -/

/-- How a fill ends that leaves its cell HELD. -/
def FillEnd.holds : FillEnd → Prop
  | .done _ _ | .underfill _ => True
  | _ => False

/-- How a fill ends that faults its cell. -/
def FillEnd.cellFault : FillEnd → Option CellOutcome
  | .leak _ => some .leak
  | .overpressure _ => some .overpressure
  | _ => none

section

variable {s u v : State} {g : Holder} {how : FillEnd} {x : Seat} {c : HoldCell} {o : CellOutcome} {f : State → State}

/-- The regulator whose cell's fill has left it HELD. -/
def State.held (s : State) (x : Seat) (c : HoldCell) : State := (s.setNeed x c .held).setService x .free

theorem supportOutcome_holds (hh : how.holds) (hs : (s.regulator x).service = .filling c) :
    supportOutcome x how s = selectCell x (s.held x c) := by
  unfold supportOutcome
  rw [hs]
  cases how with
  | done _ _ => rfl
  | underfill _ => rfl
  | leak _ => exact hh.elim
  | overpressure _ => exact hh.elim
  | suspend => exact hh.elim
  | withdrawn => exact hh.elim

theorem supportOutcome_faults (hh : how.cellFault = some o) (hs : (s.regulator x).service = .filling c) :
    supportOutcome x how s = selectCell x (faultCell x c o (s.setService x .free)) := by
  unfold supportOutcome
  rw [hs]
  cases how <;> cases hh <;> rfl

theorem regulator_held (s : State) (x : Seat) (c : HoldCell) :
    (s.held x c).regulator x = { s.regulator x with needs := (s.regulator x).needs.set c .held, service := .free } := by
  unfold State.held State.setService State.setNeed
  rw [State.regulator_modRegulator, State.regulator_modRegulator]

theorem held_stands (hr : s.unreported (.support x)) :
    (s.held x c).cellStands x c ⟨.held, s.setpoint x c, s.faultMark x c, (s.regulator x).cuts.get c⟩ s.ventWindow False := by
  refine ⟨?_, by rw [regulator_held]; exact fun e => (nomatch e), hr, rfl, False.elim⟩
  unfold State.cellFacts State.need State.faultMark
  rw [regulator_held]
  dsimp only
  rw [Four.get_set_same]
  rfl

/-- With no other cell to be filled the regulator is then free (spec/08 R162, R163). -/
theorem supportOutcome_held (hh : how.holds) (hs : (s.regulator x).service = .filling c) (alone : ∀ k, k ≠ c → s.need x k ≠ .fill) :
    supportOutcome x how s = s.held x c := by
  refine (supportOutcome_holds hh hs).trans (selectCell_idle (.inr (.inr fun k => ?_)))
  rw [regulator_held]
  by_cases own : k = c
  · subst own
    rw [Four.get_set_same]
    exact fun e => nomatch e
  · rw [Four.get_set_other _ _ _ _ own]
    exact alone k own

/-- In an air system at rest a fault of a cell is its vent and its notice. -/
theorem faultCell_quiet (c : HoldCell) (o : CellOutcome) (hq : s.pneu.queue = []) (hh : s.pneu.holder = none) :
    ∃ u : State, faultCell x c o s = raiseSeat .airFault x (.supportFault c o) none u ∧ u.reports = s.reports ∧
      u.releases = s.releases ∧ u.access = s.access ∧ u.setpoint x c = ⟨0, .device⟩ ∧
      u.regulator x = { s.regulator x with marks := (s.regulator x).marks.set c true, needs := (s.regulator x).needs.set c .vent } ∧
      ∃ a, u.pneu = (startVent (.requester (.support x)) a s).pneu := by
  let w := (s.setSetpoint x c ⟨0, .device⟩).modRegulator x fun r => { r with marks := r.marks.set c true }
  have own : (w.setNeed x c .vent).regulator x =
      { s.regulator x with marks := (s.regulator x).marks.set c true, needs := (s.regulator x).needs.set c .vent } := by
    unfold State.setNeed
    rw [State.regulator_modRegulator, State.regulator_modRegulator]
    rfl
  have cells : ((w.setNeed x c .vent).regulator x).needs.get c = .vent := by
    rw [own]
    exact Four.get_set_same _ _ _
  exact ⟨_, congrArg (raiseSeat .airFault x _ none)
    (requestVent_quiet (s := w.setNeed x c .vent) (.support x) (ventingSet_ne_zero cells) hq hh), rfl, rfl, rfl,
    State.setpoint_setSetpoint s x c _, own, _, rfl⟩

/-- With no other cell to be filled the regulator is then free (spec/08 R162, R164). -/
theorem supportOutcome_faulted (hh : how.cellFault = some o) (hs : (s.regulator x).service = .filling c)
    (alone : ∀ k, k ≠ c → s.need x k ≠ .fill) (hq : s.pneu.queue = []) (hn : s.pneu.holder = none) :
    ∃ u : State, supportOutcome x how s = raiseSeat .airFault x (.supportFault c o) none u ∧ u.reports = s.reports ∧
      u.releases = s.releases ∧ u.access = s.access ∧ u.setpoint x c = ⟨0, .device⟩ ∧
      u.regulator x = { s.regulator x with
        marks := (s.regulator x).marks.set c true, needs := (s.regulator x).needs.set c .vent, service := .free } ∧
      ∃ a, u.pneu = (startVent (.requester (.support x)) a s).pneu := by
  obtain ⟨u, faulted, reports, releases, access, setpoint, regulator, a, air⟩ :=
    faultCell_quiet (s := s.setService x .free) (x := x) c o hq hn
  rw [show (s.setService x .free).regulator x = { s.regulator x with service := .free } from State.regulator_modRegulator s x _]
    at regulator
  refine ⟨u, (supportOutcome_faults hh hs).trans ?_, reports, releases, access, setpoint, regulator, a, air⟩
  rw [faulted]
  refine selectCell_idle (.inr (.inr fun k => ?_))
  rw [raiseSeat_touches]
  show (u.regulator x).needs.get k ≠ _
  rw [regulator]
  show ((s.regulator x).needs.set c .vent).get k ≠ _
  by_cases same : k = c
  · subst same
    rw [Four.get_set_same]
    exact fun e => nomatch e
  · rw [Four.get_set_other _ _ _ _ same]
    exact alone k same

/-- The part once a fill at `x` has ended with an empty queue, before its regulator takes the outcome. -/
structure Ended (v u : State) (x : Seat) (g : Holder) (how : FillEnd) : Prop where
  regulator : u.regulator x = v.regulator x
  access : u.access = v.access
  vents : u.pneu.vents = (endFill g how v).pneu.vents
  reports : u.reports = []
  releases : u.releases = .select
  queue : u.pneu.queue = []
  holder : u.pneu.holder = none
  compressor : u.pneu.compressor = false

theorem finishFill_ended (hq : v.pneu.queue = []) (hv : v.reports = []) (hl : v.releases = .select) :
    ∃ u : State, finishFill g how v = u.report (.ended g.entry.requester how) ∧ Ended v u x g how := by
  obtain ⟨u, alone, reports, releases, queue, holder, compressor⟩ := finishFill_quiet (g := g) (how := how) hq hv hl
  have regulators : u.regulators = v.regulators := Eq.trans (by rw [alone]; rfl) (regulators_finishFill g how v)
  refine ⟨u, alone, ?_, ?_, ?_, reports, releases, queue, holder, compressor⟩
  · unfold State.regulator
    rw [regulators]
  · exact Eq.trans (by rw [alone]; rfl) (access_of_bystander (bystander_finishFill g how v))
  · exact Eq.trans (by rw [alone]; rfl) (vents_finishFill (g := g) (how := how) hq hl)

section

variable (h : s.awake) (e : f s = finishFill g how v) (hv : v.reports = []) (hl : v.releases = .select)
  (hr : g.entry.requester = .support x) (hs : (v.regulator x).service = .filling c)
include h e hv hl hr hs

/-- A fill that leaves its cell HELD (spec/08 R163). -/
theorem taken_cell_held (hh : how.holds) : ∃ t, taken f s = .next t ∧ t.need x c = .held ∧ t.setpoint x c = v.setpoint x c ∧
    t.faultMark x c = v.faultMark x c ∧ (∀ y, (t.seat y).underfill = (v.seat y).underfill) ∧ t.bystander = v.bystander ∧
    (v.pneu.queue = [] → (∀ k, k ≠ c → v.need x k ≠ .fill) →
      (t.regulator x).service = .free ∧ t.pneu.holder = none ∧ t.pneu.compressor = false) := by
  have unreported : (finishFill g how v).unreported (.support x) := unreported_finishFill (unreported_of_awake hv)
  obtain ⟨t, ht, law, stirs⟩ := taken_finish (cellStands_keep (x := x) (c := c)
    (k := ⟨.held, v.setpoint x c, v.faultMark x c, (v.regulator x).cuts.get c⟩) (w := v.ventWindow) (b := False) (fun e => nomatch e)
    False.elim) h e hv fun rest first => by
      have facts := cellFacts_finishFill (g := g) (how := how) (v := v) (x := x) (c := c)
      have service : ((finishFill g how v).regulator x).service = .filling c := by
        unfold State.regulator
        rw [regulators_finishFill]
        exact hs
      rw [hr]
      show State.cellStands x c _ _ _ (supportOutcome x how { finishFill g how v with reports := rest })
      rw [supportOutcome_holds (s := { finishFill g how v with reports := rest }) hh service]
      refine cellStands_selectCell (fun e => nomatch e) ?_
      have stands := held_stands (s := { finishFill g how v with reports := rest }) (x := x) (c := c)
        fun m => unreported (by rw [first]; exact List.mem_cons_of_mem _ m)
      have record : (⟨.held, (finishFill g how v).setpoint x c, (finishFill g how v).faultMark x c,
          ((finishFill g how v).regulator x).cuts.get c⟩ : CellFacts) = ⟨.held, v.setpoint x c, v.faultMark x c, (v.regulator x).cuts.get c⟩ := by
        obtain ⟨-, setpoint, mark, cut⟩ := CellFacts.mk.inj facts
        rw [setpoint, mark, cut]
      rw [← record, ← ventWindow_finishFill (g := g) (how := how)]
      exact stands
  have count : ∀ y, (t.seat y).underfill = (v.seat y).underfill := by
    have ended : v.uncounted (finishFill g how v) := uncounted_keep.release (uncounted_endFill (fun y m e => by
      rw [hr] at e
      cases e) ⟨fun _ => rfl, fun y m i => by rw [hv] at i; cases i⟩)
    obtain ⟨w, hw, law, -⟩ := taken_finish uncounted_keep h e hv fun rest first => uncounted_keep.taken_report _ rest first ended
    cases Host.Outcome.next.inj (ht.symm.trans hw)
    exact law.counts
  refine ⟨t, ht, law.need, law.setpoint, law.mark, count, stirs.bystander, fun hq alone => ?_⟩
  obtain ⟨u, made, ended⟩ := finishFill_ended (g := g) (how := how) (x := x) hq hv hl
  have effect : takeReport (.ended g.entry.requester how) u = u.held x c := by
    rw [hr]
    refine supportOutcome_held hh (by rw [ended.regulator]; exact hs) fun k hk => ?_
    unfold State.need
    rw [ended.regulator]
    exact alone k hk
  have exactly := taken_one_report h (e.trans made) ended.reports effect ended.reports ended.releases
  cases Host.Outcome.next.inj (ht.symm.trans exactly)
  exact ⟨by rw [regulator_held], ended.holder, ended.compressor⟩

/-- A fill that faults its cell (spec/08 R164). -/
theorem taken_cell_faulted (hh : how.cellFault = some o) : ∃ t, taken f s = .next t ∧ t.setpoint x c = ⟨0, .device⟩ ∧
    t.faultMark x c = true ∧ t.need x c = .vent ∧
    (∃ op ∈ t.pneu.vents, op.owner = .requester (.support x) ∧ op.cells.getLsbD (cellNumber c) = true ∧ op.left = v.ventWindow) ∧
    t.bystander = v.bystander ∧
    (v.pneu.queue = [] → (∀ k, k ≠ c → v.need x k ≠ .fill) → v.told t .airFault x (.supportFault c o) none ∧
      (t.regulator x).service = .free ∧ t.pneu.holder = none ∧ t.pneu.compressor = false ∧
      t.pneu.opsOf (.relief x) = (endFill g how v).pneu.opsOf (.relief x)) := by
  have unreported : (finishFill g how v).unreported (.support x) := unreported_finishFill (unreported_of_awake hv)
  obtain ⟨t, ht, law, stirs⟩ := taken_finish (ventStands_keep (x := x) (c := c) (p := ⟨0, .device⟩) (mark := true)
    (cut := (v.regulator x).cuts.get c) (w := v.ventWindow)) h e hv fun rest first => by
      have regulator : (finishFill g how v).regulator x = v.regulator x := by
        unfold State.regulator
        rw [regulators_finishFill]
      have freed : (State.setService { finishFill g how v with reports := rest } x .free).regulator x =
          { v.regulator x with service := .free } := by
        unfold State.setService
        rw [State.regulator_modRegulator]
        exact congrArg (fun r : Regulator => { r with service := .free }) regulator
      rw [hr]
      show State.cellStands x c _ _ _ (supportOutcome x how { finishFill g how v with reports := rest })
      rw [supportOutcome_faults (s := { finishFill g how v with reports := rest }) hh (by
        show ((finishFill g how v).regulator x).service = _
        rw [regulator]
        exact hs)]
      refine cellStands_selectCell (fun e => nomatch e) ?_
      have stands := faultCell_stands (s := State.setService { finishFill g how v with reports := rest } x .free) (x := x) (c := c) o
        (by rw [freed]; exact fun e => nomatch e) fun m => unreported (by rw [first]; exact List.mem_cons_of_mem _ m)
      rw [freed] at stands
      rw [← ventWindow_finishFill (g := g) (how := how)]
      exact stands
  refine ⟨t, ht, law.setpoint, law.mark, law.need, law.op trivial, stirs.bystander, fun hq alone => ?_⟩
  obtain ⟨u, made, ended⟩ := finishFill_ended (g := g) (how := how) (x := x) hq hv hl
  obtain ⟨p, faulted, reports, releases, access, -, regulator, a, air⟩ := supportOutcome_faulted (s := u) (x := x) (c := c) hh
    (by rw [ended.regulator]; exact hs) (fun k hk => by
      unfold State.need
      rw [ended.regulator]
      exact alone k hk) ended.queue ended.holder
  have effect : takeReport (.ended g.entry.requester how) u = raiseSeat .airFault x (.supportFault c o) none p := by
    rw [hr]
    exact faulted
  have exactly := taken_one_report h (e.trans made) ended.reports effect (by rw [raiseSeat_touches]; exact reports.trans ended.reports)
    (by rw [raiseSeat_touches]; exact releases.trans ended.releases)
  cases Host.Outcome.next.inj (ht.symm.trans exactly)
  refine ⟨fun m hm he => raiseSeat_reaches _ _ _ _ _ m ?_ he, ?_, ?_, ?_, ?_⟩
  · unfold State.mayRead at hm ⊢
    rw [show p.access = v.access from access.trans ended.access]
    exact hm
  · rw [raiseSeat_touches]
    show (p.regulator x).service = .free
    rw [regulator]
  · rw [raiseSeat_touches]
    exact (congrArg Pneumatic.holder air).trans ended.holder
  · rw [raiseSeat_touches]
    exact (congrArg Pneumatic.compressor air).trans ended.compressor
  · rw [raiseSeat_touches]
    refine (congrArg (Pneumatic.opsOf · _) air).trans ?_
    rw [opsOf_startVent_other (o := .relief x) (k := .requester (.support x)) a _ (fun e => by cases e)]
    unfold Pneumatic.opsOf
    exact congrArg _ ended.vents

end

end

end Sys2Proof.Machine
end
section
/-! PROOFS. The fault of a fill that a SET SUPPORT of the moment has ended (spec/01 R7, notes/assumptions/38.md), and O45. -/
namespace Sys2Proof.Machine

theorem manifoldOf_of_bystander {s t : State} (h : t.bystander = s.bystander) (x : Seat) : t.manifoldOf x = s.manifoldOf x := by
  have pneu : t.bystander.pneu.manifold = s.bystander.pneu.manifold := congrArg (·.pneu.manifold) h
  cases x
  · exact (congrArg (·.left) pneu :)
  · exact (congrArg (·.right) pneu :)

/-! ## The walk over a seat's ended fills -/

/-- What a walk over the ended fills does at a cell: it faults it, or, always where no fill of it is kept, nothing. -/
structure CutWalk (o : CellOutcome) (f : Seat → State → HoldCell → State) : Prop where
  kinds : ∀ x s d, f x s d = s ∨ f x s d = faultCut x d o s
  still : ∀ x s d, (s.regulator x).cuts.get d = none → f x s d = s

/-- The walk over the cells of a seat. -/
def walkCuts (f : Seat → State → HoldCell → State) (x : Seat) (s : State) : State := holdCells.foldl (f x) s

theorem leakWalk : CutWalk .leak leakCell where
  kinds x s d := by
    unfold leakCell
    split
    · split
      · exact .inr rfl
      · exact .inl rfl
    · exact .inl rfl
  still x s d h := by
    unfold leakCell
    rw [h]

theorem burstWalk (judged : Seat → CellSet) : CutWalk .overpressure fun x => burstCell x (judged x) where
  kinds x s d := by
    unfold burstCell
    split
    · split
      · exact .inr rfl
      · exact .inl rfl
    · exact .inl rfl
  still x s d h := by
    unfold burstCell
    rw [h]

/-- The part with the cell's ended fill no longer kept. -/
def State.uncut (s : State) (x : Seat) (c : HoldCell) : State := s.modRegulator x fun r => { r with cuts := r.cuts.set c none }

theorem regulator_uncut (s : State) (x : Seat) (c : HoldCell) :
    (s.uncut x c).regulator x = { s.regulator x with cuts := (s.regulator x).cuts.set c none } := State.regulator_modRegulator s x _

section

variable {ok : Requester → Prop} {P Q : State → Prop} {s : State} {x : Seat} {c : HoldCell} {o : CellOutcome}
  {f : Seat → State → HoldCell → State}

/-- A cell that the fault of its ended fill finds in service is freed first. -/
def State.uncutFree (s : State) (x : Seat) (c : HoldCell) : State :=
  if (s.regulator x).service.cell = some c then (withdraw (.support x) (s.uncut x c)).setService x .free else s.uncut x c

theorem faultCut_eq (s : State) (x : Seat) (c : HoldCell) (o : CellOutcome) :
    faultCut x c o s = selectCell x (faultCell x c o (s.uncutFree x c)) := rfl

theorem MoveKeep.faultCut (K : MoveKeep ok P) (hx : ok (.support x)) (o : CellOutcome) (h : P (s.uncut x c)) :
    P (faultCut x c o s) := by
  refine K.selectCell hx (K.faultCell hx c o ?_)
  split
  · exact K.setService hx _ (K.withdrawn hx h)
  · exact h

/-- A law that each cell's fault keeps. -/
theorem CutWalk.keeps (W : CutWalk o f) (fault : ∀ d s, P s → P (Machine.faultCut x d o s)) (h : P s) : P (walkCuts f x s) := by
  have cell (d : HoldCell) {u : State} (hu : P u) : P (f x u d) := by
    rcases W.kinds x u d with e | e
    · rw [e]
      exact hu
    · rw [e]
      exact fault d u hu
  exact cell .s1 (cell .s0 (cell .l1 (cell .l0 h)))

/-- A law that holds up to one cell's fault, and another one from it on. -/
theorem walkCuts_reaches (before : ∀ d s, d ≠ c → P s → P (f x s d)) (hit : ∀ s, P s → Q (f x s c))
    (after : ∀ d s, d ≠ c → Q s → Q (f x s d)) (h : P s) : Q (walkCuts f x s) := by
  show Q (f x (f x (f x (f x s .l0) .l1) .s0) .s1)
  cases c with
  | l0 => exact after .s1 _ (by decide) (after .s0 _ (by decide) (after .l1 _ (by decide) (hit _ h)))
  | l1 => exact after .s1 _ (by decide) (after .s0 _ (by decide) (hit _ (before .l0 _ (by decide) h)))
  | s0 => exact after .s1 _ (by decide) (hit _ (before .l1 _ (by decide) (before .l0 _ (by decide) h)))
  | s1 => exact hit _ (before .s0 _ (by decide) (before .l1 _ (by decide) (before .l0 _ (by decide) h)))

end

/-! ## The cell up to its fault, and from it on -/

/-- The cell's ended fill is kept, and no VENT COMPLETE of its regulator is open. -/
structure State.cutKept (x : Seat) (c : HoldCell) (k : CutFill) (v s : State) : Prop where
  cut : (s.regulator x).cuts.get c = some k
  unreported : s.unreported (.support x)
  stirs : Stirs (fun _ => True) v s

section

variable {s u v : State} {x : Seat} {c : HoldCell} {k : CutFill} {o : CellOutcome} {f : Seat → State → HoldCell → State}

/-- The kept fills of the other cells come and go. -/
theorem cuts_keep : MoveKeep (fun _ => True) (fun s => (s.regulator x).cuts.get c = some k ∧ s.unreported (.support x)) where
  pass s h := by
    rw [passCore_touches]
    exact h
  grant e s hn hm h := ⟨h.1, (unreported_keep _).grant e s hn hm h.2⟩
  ended g how s hh ha h := by
    refine ⟨Eq.trans ?_ h.1, (unreported_keep _).ended g how s hh ha h.2⟩
    unfold endFill
    dsimp only
    split <;> rfl
  requeued g s hg h := ⟨h.1, (unreported_keep _).requeued g s hg h.2⟩
  ask _ _ := ⟨fun _ _ _ _ _ h => h, fun _ _ _ _ h => h, fun _ _ _ _ h => h, fun _ h => h, fun _ h => h⟩
  vent _ _ _ _ _ h := h
  regulator y g s _ hg h := by
    refine ⟨Eq.trans ?_ h.1, h.2⟩
    by_cases own : x = y
    · subst own
      rw [State.regulator_modRegulator, hg.1]
    · rw [State.regulator_modRegulator_other s y x g own]
  fault y d s _ h := by
    refine ⟨Eq.trans ?_ h.1, h.2⟩
    by_cases own : x = y
    · subst own
      rw [State.regulator_modRegulator]
      rfl
    · rw [State.regulator_modRegulator_other _ y x _ own]
      rfl

theorem cutKept_faultCut {y : Seat} {d : HoldCell} (hd : ¬ (x = y ∧ c = d)) (o : CellOutcome) (h : State.cutKept x c k v s) :
    State.cutKept x c k v (faultCut y d o s) := by
  have kept : ((s.uncut y d).regulator x).cuts.get c = some k := by
    refine Eq.trans ?_ h.cut
    by_cases own : x = y
    · subst own
      rw [regulator_uncut]
      exact Four.get_set_other _ _ _ _ fun e => hd ⟨rfl, e⟩
    · unfold State.uncut
      rw [State.regulator_modRegulator_other s y x _ own]
  obtain ⟨cut, unreported⟩ := cuts_keep.faultCut (s := s) (x := y) (c := d) trivial o ⟨kept, h.unreported⟩
  exact ⟨cut, unreported, stirs_faultCut h.stirs y d o⟩

/-- The fault of the ended fill (spec/08 R164). -/
theorem faultCut_stands (o : CellOutcome) (h : State.cutKept x c k v s) :
    (faultCut x c o s).cellStands x c ⟨.vent, ⟨0, .device⟩, true, none⟩ v.ventWindow True := by
  rw [faultCut_eq]
  refine ventStands_selectCell ?_
  have freed : ((s.uncutFree x c).regulator x).service.cell ≠ some c ∧ ((s.uncutFree x c).regulator x).cuts.get c = none ∧
      (s.uncutFree x c).unreported (.support x) ∧ Stirs (fun _ => True) v (s.uncutFree x c) := by
    have stirs : Stirs (fun _ => True) v (s.uncut x c) := .regulator h.stirs x _ rfl
    have none_ : ((s.uncut x c).regulator x).cuts.get c = none := by
      rw [regulator_uncut]
      exact Four.get_set_same _ _ _
    unfold State.uncutFree
    split
    · obtain ⟨regulator, unreported⟩ := regRests_arb.withdraw (regRests_ask (.support x)).fills (s := s.uncut x c)
        ⟨rfl, h.unreported⟩
      have own : ((withdraw (.support x) (s.uncut x c)).setService x .free).regulator x =
          { (s.uncut x c).regulator x with service := .free } := by
        unfold State.setService
        rw [State.regulator_modRegulator, regulator]
      refine ⟨?_, ?_, unreported, stirs_setService (stirs_withdraw stirs _) x _⟩
      · rw [own]
        exact fun e => nomatch e
      · rw [own]
        exact none_
    · rename_i other
      refine ⟨?_, none_, h.unreported, stirs⟩
      rw [regulator_uncut]
      exact other
  obtain ⟨service, cuts, unreported, stirs⟩ := freed
  have stands := faultCell_stands (c := c) o service unreported
  rw [cuts, show (s.uncutFree x c).ventWindow = v.ventWindow from param_of_bystander stirs.bystander 49] at stands
  exact stands

/-- Another cell's fault, of the same seat or the other. -/
theorem cellStands_faultCut {y : Seat} {d : HoldCell} {a : CellFacts} {w : Nat} (hn : a.need = .vent) (hd : ¬ (x = y ∧ c = d))
    (o : CellOutcome) (h : s.cellStands x c a w True) : (faultCut y d o s).cellStands x c a w True := by
  have filled : a.need ≠ .fill := by
    rw [hn]
    exact fun e => nomatch e
  by_cases own : x = y
  · subst own
    have other : c ≠ d := fun e => hd ⟨rfl, e⟩
    have uncut : (s.uncut x d).cellStands x c a w True := h.regulated _ rfl rfl (Four.get_set_other _ _ _ _ other) h.served
    rw [faultCut_eq]
    refine cellStands_selectCell filled (cellStands_faultCell (fun _ => hn) other o ?_)
    unfold State.uncutFree
    split
    · exact (cellStands_arb.withdraw (cellStands_fill _) uncut).serviced fun e => nomatch e
    · exact uncut
  · exact (cellStands_keep filled fun _ => hn).faultCut (fun e => own (Requester.support.inj e).symm) o (h.regulated_other own _)

/-- The walk over both seats' ended fills. -/
def walkBoth (f : Seat → State → HoldCell → State) (s : State) : State := walkCuts f .right (walkCuts f .left s)

theorem walkBoth_reaches {P Q : State → Prop} (other : ∀ y s, y ≠ x → P s → P (walkCuts f y s)) (own : ∀ s, P s → Q (walkCuts f x s))
    (after : ∀ y s, y ≠ x → Q s → Q (walkCuts f y s)) (h : P s) : Q (walkBoth f s) := by
  cases x with
  | left => exact after .right _ (by decide) (own _ h)
  | right => exact own _ (other .left _ (by decide) h)

theorem walkBoth_stands (W : CutWalk o f) (hit : ∀ u, State.cutKept x c k v u → f x u c = faultCut x c o u)
    (h : State.cutKept x c k v s) : (walkBoth f s).cellStands x c ⟨.vent, ⟨0, .device⟩, true, none⟩ v.ventWindow True := by
  refine walkBoth_reaches (P := State.cutKept x c k v)
    (fun y u hy hu => W.keeps (fun d w hw => cutKept_faultCut (fun e => hy e.1.symm) o hw) hu)
    (fun u hu => walkCuts_reaches (c := c) (P := State.cutKept x c k v) (fun d w hd hw => ?_) (fun w hw => ?_)
      (fun d w hd hw => ?_) hu)
    (fun y u hy hu => W.keeps (fun d w hw => cellStands_faultCut rfl (fun e => hy e.1.symm) o hw) hu) h
  · rcases W.kinds x w d with e | e
    · rw [e]
      exact hw
    · rw [e]
      exact cutKept_faultCut (fun e => hd e.2.symm) o hw
  · rw [hit w hw]
    exact faultCut_stands o hw
  · rcases W.kinds x w d with e | e
    · rw [e]
      exact hw
    · rw [e]
      exact cellStands_faultCut rfl (fun e => hd e.2.symm) o hw

/-! ## The notice of the fault, in an air system at rest -/

/-- The seat asks for nothing, and its regulator is as before. -/
structure State.awaits (x : Seat) (ops : List VentOp) (v s : State) : Prop where
  silent : s.silent x [] ops
  regulator : s.regulator x = v.regulator x
  access : s.access = v.access

theorem awaits_keep {ops : List VentOp} : MoveKeep (fun r => r.seat ≠ x) (State.awaits x ops v) where
  releases r s hn h := ⟨silent_arb.releases r s hn h.silent, h.regulator, h.access⟩
  pass s h := ⟨silent_arb.pass s h.silent, by rw [passCore_touches]; exact h.regulator, by rw [passCore_touches]; exact h.access⟩
  tune f s hq hv hh h := ⟨silent_arb.tune f s hq hv hh h.silent, h.regulator, h.access⟩
  grant e s hn hm h := ⟨silent_arb.grant e s hn hm h.silent, h.regulator, h.access⟩
  ended g how s hh ha h := by
    have same : (endFill g how s).regulators = s.regulators ∧ (endFill g how s).access = s.access := by
      unfold endFill
      dsimp only
      split <;> exact ⟨rfl, rfl⟩
    refine ⟨silent_arb.ended g how s hh ha h.silent, Eq.trans ?_ h.regulator, same.2.trans h.access⟩
    unfold State.regulator
    rw [same.1]
  requeued g s hg h := ⟨silent_arb.requeued g s hg h.silent, h.regulator, h.access⟩
  ask r hr :=
    ⟨fun c g s hc hq h => ⟨(silent_ask hr).replace c g s hc hq h.silent, h.regulator, h.access⟩,
      fun c g s hc h => ⟨(silent_ask hr).rehold c g s hc h.silent, h.regulator, h.access⟩,
      fun c g s hc h => ⟨(silent_ask hr).append c g s hc h.silent, h.regulator, h.access⟩,
      fun s h => ⟨(silent_ask hr).remove s h.silent, h.regulator, h.access⟩,
      fun s h => ⟨(silent_ask hr).unvent s h.silent, h.regulator, h.access⟩⟩
  vent r c s _ _ h := ⟨silent_startVent c (fun e => nomatch e) h.silent, h.regulator, h.access⟩
  cursor _ _ s _ h := ⟨silent_of_air h.silent rfl rfl, h.regulator, h.access⟩
  regulator y g s hy _ h :=
    ⟨silent_of_air h.silent rfl rfl, (State.regulator_modRegulator_other s y x g fun e => hy e.symm).trans h.regulator, h.access⟩
  fault y _ s hy h :=
    ⟨silent_of_air h.silent rfl rfl, (State.regulator_modRegulator_other _ y x _ fun e => hy e.symm).trans h.regulator, h.access⟩
  airFault r k s _ h := by
    rw [raiseSeat_touches]
    exact ⟨silent_of_air h.silent rfl rfl, h.regulator, h.access⟩
  programEnd y k s _ h := by
    rw [raiseSeat_touches]
    exact ⟨silent_of_air h.silent rfl rfl, h.regulator, h.access⟩
  read i s h := by
    rw [readRecord_touches]
    exact ⟨silent_of_air h.silent rfl rfl, h.regulator, h.access⟩

/-- The fault of the seat's one ended fill raises AIR FAULT for its cell, and then no fill of the seat is kept. -/
theorem faultCut_tells {ops : List VentOp} (o : CellOutcome) (fills : ∀ d, v.need x d ≠ .fill)
    (cuts : ∀ d, d ≠ c → (v.regulator x).cuts.get d = none) (h : State.awaits x ops v s) :
    State.hushed x ops (.supportFault c o) v (faultCut x c o s) ∧ ∀ d, ((faultCut x c o s).regulator x).cuts.get d = none := by
  have absent : (s.uncut x c).absent (.support x) := (silent_of_air h.silent rfl rfl : (s.uncut x c).silent x [] ops).absent rfl
  let u := s.uncutFree x c
  have free : State.silent x [] ops u ∧ u.access = v.access ∧ (u.regulator x).needs = (v.regulator x).needs ∧
      (u.regulator x).cuts = (v.regulator x).cuts.set c none := by
    have own : (s.uncut x c).regulator x = { v.regulator x with cuts := (v.regulator x).cuts.set c none } := by
      rw [regulator_uncut, h.regulator]
    show State.silent x [] ops (s.uncutFree x c) ∧ (s.uncutFree x c).access = v.access ∧
      ((s.uncutFree x c).regulator x).needs = (v.regulator x).needs ∧
      ((s.uncutFree x c).regulator x).cuts = (v.regulator x).cuts.set c none
    unfold State.uncutFree
    rw [withdraw_absent absent]
    split
    · unfold State.setService
      rw [State.regulator_modRegulator, own]
      exact ⟨silent_of_air h.silent rfl rfl, h.access, rfl, rfl⟩
    · rw [own]
      exact ⟨silent_of_air h.silent rfl rfl, h.access, rfl, rfl⟩
  obtain ⟨silent, access, needs, none_⟩ := free
  let marked := ((u.setSetpoint x c ⟨0, .device⟩).modRegulator x fun r => { r with marks := r.marks.set c true }).setNeed x c .vent
  have regulator : marked.regulator x =
      { u.regulator x with marks := (u.regulator x).marks.set c true, needs := (u.regulator x).needs.set c .vent } := by
    show (State.setNeed _ x c .vent).regulator x = _
    unfold State.setNeed
    rw [State.regulator_modRegulator, State.regulator_modRegulator]
    rfl
  have some_ : (marked.regulator x).ventingSet ≠ 0 := ventingSet_ne_zero (c := c) (by
    rw [regulator]
    exact Four.get_set_same _ _ _)
  let vented := requestVent (.support x) (marked.regulator x).ventingSet marked
  have ventedSilent : State.silent x [] ops vented := silent_arb.requestVent _ some_
    (fun w hw => silent_startVent _ (fun e => nomatch e) hw) (silent_of_air silent rfl rfl)
  have ventedRegulator : vented.regulator x = marked.regulator x :=
    (regRests_arb (x := x) (r := marked.regulator x)).requestVent _ some_ (fun w hw => ⟨hw.regulator, hw.unreported⟩)
      ⟨rfl, fun m => by
        obtain ⟨rest, e, hs⟩ := silent.reports
        exact hs _ (by
          rw [List.nil_append] at e
          rw [← e]
          exact m) rfl⟩ |>.regulator
  have ventedAccess : vented.access = v.access :=
    (access_of_bystander (stirs_requestVent (P := fun _ => True) (.same marked) (.support x) _).bystander).trans access
  have effect : faultCut x c o s = raiseSeat .airFault x (.supportFault c o) none vented := by
    rw [faultCut_eq]
    show selectCell x (raiseSeat .airFault x (.supportFault c o) none vented) = _
    refine selectCell_idle (.inr (.inr fun d => ?_))
    rw [raiseSeat_touches]
    show (vented.regulator x).needs.get d ≠ _
    rw [ventedRegulator, regulator]
    show ((u.regulator x).needs.set c .vent).get d ≠ _
    by_cases own : d = c
    · subst own
      rw [Four.get_set_same]
      exact fun e => nomatch e
    · rw [Four.get_set_other _ _ _ _ own, needs]
      exact fills d
  rw [effect]
  refine ⟨⟨silent_of_air ventedSilent (by rw [raiseSeat_touches]) (by rw [raiseSeat_touches]), fun m hm he => ?_⟩, fun d => ?_⟩
  · refine raiseSeat_reaches _ _ _ _ _ m ?_ he
    unfold State.mayRead at hm ⊢
    rw [ventedAccess]
    exact hm
  · rw [raiseSeat_touches]
    show (vented.regulator x).cuts.get d = none
    rw [ventedRegulator, regulator]
    show (u.regulator x).cuts.get d = none
    rw [none_]
    by_cases own : d = c
    · subst own
      exact Four.get_set_same _ _ _
    · rw [Four.get_set_other _ _ _ _ own]
      exact cuts d own

theorem walkBoth_tells {ops : List VentOp} (W : CutWalk o f) (fills : ∀ d, v.need x d ≠ .fill)
    (cuts : ∀ d, d ≠ c → (v.regulator x).cuts.get d = none)
    (hit : ∀ u, State.awaits x ops v u → Stirs (fun _ => True) v u → f x u c = faultCut x c o u)
    (h : State.awaits x ops v s) (stirs : Stirs (fun _ => True) v s) : State.hushed x ops (.supportFault c o) v (walkBoth f s) := by
  have afterOther (y : Seat) (u : State) (hy : y ≠ x) (hu : State.hushed x ops (.supportFault c o) v u) :
      State.hushed x ops (.supportFault c o) v (walkCuts f y u) :=
    W.keeps (fun d w hw => hushed_keep.faultCut (x := y) hy o ⟨silent_of_air hw.silent rfl rfl, hw.told⟩) hu
  refine walkBoth_reaches (P := fun w => State.awaits x ops v w ∧ Stirs (fun _ => True) v w)
    (fun y u hy hu => W.keeps (P := fun w => State.awaits x ops v w ∧ Stirs (fun _ => True) v w)
      (fun d w hw => ⟨?_, stirs_faultCut hw.2 y d o⟩) hu) (fun u hu => ?_) afterOther ⟨h, stirs⟩
  · exact awaits_keep.faultCut (x := y) hy o ⟨silent_of_air hw.1.silent rfl rfl,
      (State.regulator_modRegulator_other w y x _ (Ne.symm hy)).trans hw.1.regulator, hw.1.access⟩
  · refine (walkCuts_reaches (c := c) (P := fun w => State.awaits x ops v w ∧ Stirs (fun _ => True) v w)
      (Q := fun w => State.hushed x ops (.supportFault c o) v w ∧ ∀ d, (w.regulator x).cuts.get d = none)
      (fun d w hd hw => ?_) (fun w hw => ?_) (fun d w _ hw => ?_) hu).1
    · rw [W.still x w d (by rw [hw.1.regulator]; exact cuts d hd)]
      exact hw
    · rw [hit w hw.1 hw.2]
      exact faultCut_tells o fills cuts hw.1
    · rw [W.still x w d (hw.2 d)]
      exact hw

/-- What a walk over both seats' ended fills makes of the one of a cell, whatever the air system does. -/
theorem taken_walk {F : State → State} (W : CutWalk o f) (ha : s.awake) (e : F s = walkBoth f u)
    (kept : State.cutKept x c k v u) (hit : ∀ w, (w.regulator x).cuts.get c = some k → w.manifoldOf x = v.manifoldOf x →
      f x w c = faultCut x c o w) :
    ∃ t, taken F s = .next t ∧ t.setpoint x c = ⟨0, .device⟩ ∧ t.faultMark x c = true ∧ t.need x c = .vent ∧
      (t.regulator x).cuts.get c = none ∧ t.bystander = v.bystander ∧
      (u = v → v.airQuiet = true → (∀ d, v.need x d ≠ .fill) → (∀ d, d ≠ c → (v.regulator x).cuts.get d = none) →
        v.told t .airFault x (.supportFault c o) none) := by
  have manifold {w : State} (hw : Stirs (fun _ => True) v w) : w.manifoldOf x = v.manifoldOf x := manifoldOf_of_bystander hw.bystander x
  have walked := walkBoth_stands W (fun w hw => hit w hw.cut (manifold hw.stirs)) kept
  have stirs : Stirs (fun _ => True) v (walkBoth f u) := by
    have one (y : Seat) {w : State} (hw : Stirs (fun _ => True) v w) : Stirs (fun _ => True) v (walkCuts f y w) :=
      W.keeps (fun d z hz => stirs_faultCut hz y d o) hw
    exact one .right (one .left kept.stirs)
  obtain ⟨t, ht, law⟩ := ventStands_keep.taken_keeps (f := F) ha (by rw [e]; exact walked)
  refine ⟨t, ht, law.setpoint, law.mark, law.need, law.cut, ?_, fun same quiet fills cuts => ?_⟩
  · obtain ⟨w, hw, followed⟩ := taken_next F s ha
    cases Host.Outcome.next.inj (ht.symm.trans hw)
    rw [followed.bystander, e]
    exact stirs.bystander
  · obtain ⟨queue, holder, reports⟩ := (airQuiet_iff v).mp quiet
    rw [same] at e
    have silent : State.silent x [] (v.pneu.opsOf (.relief x)) v := by
      refine ⟨fun q hq => ?_, fun q hq => ?_, ⟨[], reports, fun _ m => nomatch m⟩, rfl⟩
      · rw [queue] at hq
        cases hq
      · rw [holder] at hq
        cases hq
    have told := walkBoth_tells W fills cuts (fun w hw hs => hit w (by rw [hw.regulator, ← same]; exact kept.cut) (manifold hs))
      ⟨silent, rfl, rfl⟩ (.same v)
    obtain ⟨w, hw, law⟩ := hushed_keep.taken_keeps (f := F) ha (by rw [e]; exact told)
    cases Host.Outcome.next.inj (ht.symm.trans hw)
    exact law.told

end

/-- A sample's judgement is a fill's end, or nothing. -/
theorem judgeFill_keeps {P : State → Prop} {s : State} (h : P s) (ends : ∀ g how, s.pneu.holder = some g → P (finishFill g how s)) :
    P (judgeFill s) := by
  unfold judgeFill
  split
  · rename_i g hg
    split
    · split
      · exact ends g _ hg
      · exact h
    · exact h
  · exact h

/-- Settles O45: a holding cell's fill that ends, and one that a SET SUPPORT of the moment has ended. -/
theorem supportFillsEnd : Obligations.SupportFillsEnd := by
  unfold Obligations.SupportFillsEnd
  refine ⟨fun x c g s h hg hr hs hcells hc => ?_, fun x c k s h hk => ?_⟩
  · intro alone rests held faulted relieved
    have seat : g.seat = x := congrArg Requester.seat hr
    have ends {f : State → State} {v : State} {m : Nat} (e : f s = finishFill g (.overpressure m) v) (hv : v.reports = [])
        (hl : v.releases = .select) (air : v.pneu.queue = s.pneu.queue) (window : v.ventWindow = s.ventWindow)
        (regulators : v.regulators = s.regulators) (rights : v.access = s.access) :
        ∃ t, taken f s = .next t ∧ faulted .overpressure t ∧ relieved t ∧ t.bystander = v.bystander := by
      have same : v.regulator x = s.regulator x := by
        unfold State.regulator
        rw [regulators]
      obtain ⟨t, ht, setpoint, mark, need, op, stands, quiet⟩ := taken_cell_faulted (x := x) (c := c) (o := .overpressure) h e hv hl hr
        (by rw [same]; exact hs) rfl
      have quiet (a : alone) := quiet (air.trans a.1) fun k hk => by
        unfold State.need
        rw [same]
        exact a.2 k hk
      rw [window] at op
      refine ⟨t, ht, ⟨setpoint, mark, need, op, fun a m hm he => (quiet a).1 m ?_ he,
        fun a => ⟨(quiet a).2.1, (quiet a).2.2.1, (quiet a).2.2.2.1⟩⟩,
        fun a => ?_, stands⟩
      · unfold State.mayRead at hm ⊢
        rw [rights]
        exact hm
      · have ops := (quiet a).2.2.2.2
        rw [← seat, opsOf_endFill_burst hcells, window] at ops
        rw [← seat]
        exact (mem_opsOf.mp (ops ▸ List.mem_singleton.mpr rfl : _ ∈ t.pneu.opsOf (.relief g.seat))).1
    have starts (how : FillEnd) (hm : s.pneu.selector = .moving (seatPos x) 0) (hp : g.p0 = none)
        (hv : ventedCells s.pneu.vents x &&& g.entry.cells = 0) (hw : startCheck g (s.manifoldOf x) = some how) :
        arriveSelector s = finishFill g how (takeP0 g (s.arrived (seatPos x))) := by
      rw [arriveSelector_begins hm hg hp (by rw [seat]) (by rw [seat]; exact hv)]
      unfold beginFilling
      rw [show startCheck g ((s.arrived (seatPos x)).manifoldOf g.seat) = some how by rw [seat]; exact hw]
    have same (p : SelPos) : (takeP0 g (s.arrived p)).bystander = s.bystander :=
      (bystander_modPneu (s.arrived p) _ rfl).trans (bystander_modPneu s _ rfl)
    refine ⟨?_, fun hp hm hv => ⟨fun h5 ht => ?_, fun h5 => ?_⟩, fun hp ht => ?_, fun p0 hp hall ht hlow hleak => ?_⟩
    · intro l r hp hall kept
      have effect : sampleManifolds l r s = judgeFill kept := sampleManifolds_eq hall
      refine ⟨fun h5 ht => ?_, fun h5 => ?_⟩
      · have e := effect.trans (judgeFill_ends hg hp (judgeSample_done (by rw [seat]; exact h5) (by rw [seat]; exact ht)))
        obtain ⟨t, taken, need, setpoint, mark, count, stands, quiet⟩ :=
          taken_cell_held (x := x) (c := c) (v := kept) h e h.2.1 h.2.2 hr hs trivial
        exact ⟨t, taken, ⟨need, setpoint, mark, count, fun a => quiet a.1 a.2⟩, stands⟩
      · exact ends (effect.trans (judgeFill_ends hg hp (judgeSample_burst (by rw [seat]; exact h5)))) h.2.1 h.2.2 rfl rfl rfl rfl
    · have e := starts (.done true _) hm hp hv ((if_neg (Nat.not_le.mpr h5)).trans (if_pos ht))
      obtain ⟨t, taken, need, setpoint, mark, count, stands, quiet⟩ := taken_cell_held (x := x) (c := c) h e h.2.1 h.2.2 hr hs trivial
      exact ⟨t, taken, ⟨need, setpoint, mark, count, fun a => quiet a.1 a.2⟩, stands.trans (same _)⟩
    · obtain ⟨t, taken, fault, relief, stands⟩ := ends (starts (.overpressure _) hm hp hv (if_pos h5)) h.2.1 h.2.2 rfl rfl rfl rfl
      exact ⟨t, taken, fault, relief, stands.trans (same _)⟩
    · have e := expireFill_due hg hp ht
      obtain ⟨t, taken, need, setpoint, mark, count, stands, quiet⟩ := taken_cell_held (x := x) (c := c) h e h.2.1 h.2.2 hr hs trivial
      exact ⟨t, taken, ⟨need, setpoint, mark, count, fun a => quiet a.1 a.2⟩, stands⟩
    · have e := (expireRise_due hg hp ht).trans (if_pos ((leaks_iff _ _ _).mpr ⟨hlow, by rw [seat]; exact hleak⟩))
      obtain ⟨t, taken, setpoint, mark, need, op, stands, quiet⟩ :=
        taken_cell_faulted (x := x) (c := c) (o := .leak) h e h.2.1 h.2.2 hr hs rfl
      exact ⟨t, taken, ⟨setpoint, mark, need, op, fun a => (quiet a.1 a.2).1,
        fun a => ⟨(quiet a.1 a.2).2.1, (quiet a.1 a.2).2.2.1, (quiet a.1 a.2).2.2.2.1⟩⟩, stands⟩
  · intro faulted
    refine ⟨?_, fun hn hdue hlow hleak => ?_⟩
    · intro l r hj kept h5
      let judged (y : Seat) : CellSet := State.fillingFor kept (.support y)
      have outside : overlap (judged x) (cellBit c) = false := by
        refine (overlap_false _ _).mpr ?_
        show State.fillingFor kept (.support x) &&& cellBit c = 0
        unfold State.fillingFor
        split
        · rename_i g hg
          obtain ⟨held, own⟩ := heldBy_some hg
          split
          · rename_i hp
            exact (hj g held own).resolve_left fun e => by rw [e] at hp; cases hp
          · exact BitVec.zero_and
        · exact BitVec.zero_and
      have kept' : State.cutKept x c k kept (judgeFill kept) := by
        refine ⟨?_, ?_, ?_⟩
        · unfold State.regulator
          rw [regulators_judgeFill]
          exact hk
        · exact judgeFill_keeps (P := (State.unreported · (.support x))) (s := kept) (unreported_of_awake h.2.1)
            fun _ _ _ => unreported_finishFill (unreported_of_awake h.2.1)
        · exact judgeFill_keeps (.same kept) fun g how _ => stirs_finishFill (.same kept) g how
      obtain ⟨t, ht, setpoint, mark, need, cut, stands, told⟩ := taken_walk (F := sampleManifolds l r) (burstWalk judged) h rfl kept'
        fun w hw hm => by
          unfold burstCell
          rw [hw]
          refine if_pos ?_
          rw [outside, hm]
          exact decide_eq_true h5
      refine ⟨t, ht, ⟨setpoint, mark, need, cut, fun quiet => told ?_ quiet⟩, stands⟩
      exact judgeFill_rest fun g hg => nomatch hg.symm.trans ((airQuiet_iff s).mp quiet).2.1
    · have e : expireRise s = walkBoth leakCell s := by
        unfold expireRise
        split
        · rename_i g hg
          split
          · rename_i p0 hp ht
            exact (hn g hg).elim (fun e => by rw [e] at hp; cases hp) fun e => absurd ht e
          · rfl
        · rfl
      obtain ⟨t, ht, setpoint, mark, need, cut, stands, told⟩ := taken_walk (F := expireRise) leakWalk h e
        ⟨hk, unreported_of_awake h.2.1, .same s⟩ fun w hw hm => by
          unfold leakCell
          rw [hw]
          refine if_pos ?_
          rw [hdue, hm, (leaks_iff _ _ _).mpr ⟨hlow, hleak⟩]
          rfl
      exact ⟨t, ht, ⟨setpoint, mark, need, cut, fun quiet => told rfl quiet⟩, stands⟩

end Sys2Proof.Machine
end
section
/-! PROOFS. SET SUPPORT (O16). -/
namespace Sys2Proof.Machine

/-! ## What stands through the reports -/

/-- The setpoint stands, or a fault has made it 0 (spec/08 R164). -/
def State.asked (x : Seat) (c : HoldCell) (p : Setting) (s : State) : Prop :=
  s.setpoint x c = p ∨ (s.setpoint x c = ⟨0, .device⟩ ∧ s.faultMark x c = true)

/-- The ended fills that are kept of the seat. -/
def State.cutsAre (x : Seat) (k : Four (Option CutFill)) (s : State) : Prop := (s.regulator x).cuts = k

section

variable {x : Seat} {c : HoldCell} {p : Setting} {k : Four (Option CutFill)} {s v : State}

/-- What leaves the setpoint and the mark alone keeps that law. -/
theorem State.asked.of_same {t : State} (h : s.asked x c p) (hs : t.setpoint x c = s.setpoint x c)
    (hm : t.faultMark x c = s.faultMark x c) : t.asked x c p := by
  unfold State.asked
  rw [hs, hm]
  exact h

theorem asked_keep : SettleKeep (fun _ => True) (State.asked x c p) where
  pass s h := by
    rw [passCore_touches]
    exact h
  grant _ _ _ _ h := h
  ended g how s _ _ h := by
    refine h.of_same ?_ ?_ <;>
      unfold endFill <;>
      dsimp only <;>
      split <;> rfl
  requeued _ _ _ h := h
  ask _ _ := ⟨fun _ _ _ _ _ h => h, fun _ _ _ _ h => h, fun _ _ _ _ h => h, fun _ h => h, fun _ h => h⟩
  vent _ _ _ _ _ h := h
  regulator y g s _ hg h := by
    refine h.of_same rfl ?_
    unfold State.faultMark
    by_cases own : x = y
    · subst own
      rw [State.regulator_modRegulator, hg.2]
    · rw [State.regulator_modRegulator_other s y x g own]
  fault y d s _ h := by
    by_cases own : x = y ∧ c = d
    · obtain ⟨rfl, rfl⟩ := own
      refine .inr ⟨State.setpoint_setSetpoint s x c _, ?_⟩
      unfold State.faultMark
      rw [State.regulator_modRegulator]
      exact Four.get_set_same _ _ _
    · refine h.of_same (setpoint_setSetpoint_other s y x d c _ own) ?_
      unfold State.faultMark
      by_cases seat : x = y
      · subst seat
        rw [State.regulator_modRegulator]
        exact Four.get_set_other _ _ _ _ fun e => own ⟨rfl, e⟩
      · rw [State.regulator_modRegulator_other _ y x _ seat]
        rfl
  underfill y m rest s _ _ h := by
    refine h.of_same ?_ rfl
    unfold State.setpoint
    cases x <;> cases y <;> rfl
  inert _ _ _ _ hr _ := absurd trivial hr

theorem cutsAre_keep : SettleKeep (fun _ => True) (State.cutsAre x k) where
  pass s h := by
    rw [passCore_touches]
    exact h
  grant _ _ _ _ h := h
  ended g how s _ _ h := by
    refine Eq.trans ?_ h
    unfold endFill
    dsimp only
    split <;> rfl
  requeued _ _ _ h := h
  ask _ _ := ⟨fun _ _ _ _ _ h => h, fun _ _ _ _ h => h, fun _ _ _ _ h => h, fun _ h => h, fun _ h => h⟩
  vent _ _ _ _ _ h := h
  regulator y g s _ hg h := by
    refine Eq.trans ?_ h
    by_cases own : x = y
    · subst own
      rw [State.regulator_modRegulator, hg.1]
    · rw [State.regulator_modRegulator_other s y x g own]
  fault y d s _ h := by
    refine Eq.trans ?_ h
    by_cases own : x = y
    · subst own
      rw [State.regulator_modRegulator]
      rfl
    · rw [State.regulator_modRegulator_other _ y x _ own]
      rfl
  inert _ _ _ _ hr _ := absurd trivial hr

theorem cellStands_withResults {a : CellFacts} {w : Nat} {b : Prop} (r : PerMaster LastResult) (h : s.cellStands x c a w b) :
    (s.withResults r).cellStands x c a w b := ⟨h.facts, h.served, h.unreported, h.window, h.covered⟩

/-! ## The hand-off (spec/08 R160) -/

/-- The part with the setpoint stored and CHANGED raised. -/
def State.supportSet (s : State) (m : Master) (x : Seat) (c : HoldCell) (v : Nat) : State :=
  raiseChanged m x (.cell c) (s.setSetpoint x c ⟨v, m.origin⟩)

variable {m : Master} {n : Nat}

theorem supportSet_keeps : (s.supportSet m x c n).pneu = s.pneu ∧ (s.supportSet m x c n).reports = s.reports ∧
    (s.supportSet m x c n).releases = s.releases ∧ (s.supportSet m x c n).regulators = s.regulators ∧
    (s.supportSet m x c n).results = s.results ∧ (s.supportSet m x c n).params = s.params ∧
    (s.supportSet m x c n).budget = s.budget := by
  unfold State.supportSet raiseChanged
  rw [raiseSeat_touches]
  exact ⟨rfl, rfl, rfl, rfl, rfl, rfl, rfl⟩

theorem regulator_supportSet (y : Seat) : (s.supportSet m x c n).regulator y = s.regulator y := by
  unfold State.regulator
  rw [supportSet_keeps.2.2.2.1]

theorem occupancy_supportSet : ((s.supportSet m x c n).seat x).occupancy = (s.seat x).occupancy := by
  unfold State.supportSet raiseChanged
  rw [raiseSeat_touches]
  cases x <;> rfl

theorem setpoint_supportSet : (s.supportSet m x c n).setpoint x c = ⟨n, m.origin⟩ := by
  unfold State.supportSet raiseChanged
  rw [raiseSeat_touches]
  exact State.setpoint_setSetpoint s x c _

theorem takeSetSupport_eq {value : Half} {u : State} (hw : u.mayWrite m x.region = true) :
    takeSetSupport m (byteOf (seatCode x)) (byteOf (cellNumber c)) value u = recordResult m 0x12 (some x)
      (if u.faultMark x c = true ∧ 0 < value.toNat then refuse .badField u
        else (handSetpoint x c (u.setpoint x c).value (min 350 value.toNat) (u.supportSet m x c (min 350 value.toNat)),
          if value.toNat ≤ 350 then .ok else .clamped)) := by
  have seat : supportSeat (byteOf (seatCode x)) (byteOf (cellNumber c)) = some x := by
    unfold supportSeat
    rw [cellOfCode_cellNumber, seatOfCode_seatCode]
    rfl
  have refused : (u.faultMark x c && decide (0 < value.toNat)) = decide (u.faultMark x c = true ∧ 0 < value.toNat) := by
    rw [Bool.decide_and, Bool.decide_eq_true]
  unfold takeSetSupport ownSetSupport
  rw [seat, seatOfCode_seatCode, cellOfCode_cellNumber]
  dsimp only
  rw [if_pos hw, refused, clampResult_le]
  by_cases e : u.faultMark x c = true ∧ 0 < value.toNat
  · rw [if_pos e, if_pos (decide_eq_true e)]
  · rw [if_neg e, if_neg (by rw [decide_eq_false e]; decide)]
    rfl

/-- What SET SUPPORT keeps of the fill that it ends (spec/01 R7). -/
theorem cutShort_holding {h : Holder} {p0 : Nat} (hh : s.pneu.holder = some h) (hp : h.p0 = some p0)
    (hr : h.entry.requester = .support x) : cutShort x c s =
      s.modRegulator x (Regulator.keepCut c ⟨h.entry.target, p0, decide (h.riseTimer = some 0)⟩) := by
  have held : s.heldBy (.support x) = some h := by
    unfold State.heldBy
    rw [hh]
    exact if_pos hr
  have due : (h.riseTimer == some 0) = decide (h.riseTimer = some 0) := by
    rw [Bool.eq_iff_iff]
    simp
  unfold cutShort
  rw [held]
  dsimp only
  rw [hp, due] <;> rfl

/-- A cell that joins the venting set unserved (spec/08 R160, R161). -/
theorem joinVent_stands (hs : (s.regulator x).service.cell ≠ some c) (hr : s.unreported (.support x)) :
    (joinVent x c s).cellStands x c ⟨.vent, s.setpoint x c, s.faultMark x c, (s.regulator x).cuts.get c⟩ s.ventWindow True := by
  have own : (s.setNeed x c .vent).regulator x = { s.regulator x with needs := (s.regulator x).needs.set c .vent } :=
    State.regulator_modRegulator s x _
  refine cellStands_joinVent (b := False) (fun _ => rfl) ⟨?_, by rw [own]; exact hs, hr, rfl, False.elim⟩
  unfold State.cellFacts State.need State.faultMark
  rw [own]
  dsimp only
  rw [Four.get_set_same]
  rfl

theorem MoveKeep.handSetpoint {ok : Requester → Prop} {P : State → Prop} (K : MoveKeep ok P) (hx : ok (.support x)) (old new : Nat)
    (cut : P (cutShort x c s)) (h : P s) : P (handSetpoint x c old new s) := by
  unfold Machine.handSetpoint
  split
  · unfold handEmpty
    split
    · exact h
    · exact K.setNeed hx c _ h
  · split
    · unfold raiseCell
      split
      · exact K.selectCell hx (K.setNeed hx c _ h)
      · split
        · exact K.fill hx _ _ (cellBit_ne_zero c) (K.setService hx _ cut)
        · exact h
      · exact h
    · split
      · unfold lowerCell
        split
        · exact h
        all_goals
          split
          · exact K.selectCell hx (K.joinVent hx c (K.setService hx _ (K.withdrawn hx cut)))
          · exact K.joinVent hx c h
      · exact h

/-- A changed setpoint of the cell in service ends its fill (spec/08 R160). -/
theorem handSetpoint_served {old new : Nat} (ho : (s.seat x).occupancy ≠ .empty) (hs : (s.regulator x).service.cell = some c)
    (hn : s.need x c = .fill) (hv : new ≠ old) : handSetpoint x c old new s =
      if old < new then
        requestFill (.support x) (cellBit c) (s.setpoint x c).value ((cutShort x c s).setService x (.waiting c))
      else selectCell x (joinVent x c ((withdraw (.support x) (cutShort x c s)).setService x .free)) := by
  unfold handSetpoint raiseCell lowerCell
  rw [if_neg ho, hn]
  dsimp only
  rw [if_pos hs, if_pos hs]
  split
  · rfl
  · rw [if_pos (by omega)]

theorem handSetpoint_lowered {old new : Nat} (ho : (s.seat x).occupancy ≠ .empty) (hs : (s.regulator x).service.cell ≠ some c)
    (hn : s.need x c = .held) (hv : new < old) : handSetpoint x c old new s = joinVent x c s := by
  unfold handSetpoint raiseCell lowerCell
  rw [if_neg ho, if_neg (by omega), if_pos hv, hn]
  exact if_neg hs

theorem handSetpoint_raised {old new : Nat} (ho : (s.seat x).occupancy ≠ .empty) (hn : s.need x c = .held) (hv : old < new) :
    handSetpoint x c old new s = selectCell x (s.setNeed x c .fill) := by
  unfold handSetpoint raiseCell
  rw [if_neg ho, if_pos hv, hn]

/-- In a starved part at rest the raised cell waits alone in the queue (spec/08 R160, R162, spec/04 R71). -/
theorem handSetpoint_starved {old : Nat} (ho : (s.seat x).occupancy ≠ .empty) (hn : s.need x c = .held)
    (hv : old < (s.setpoint x c).value) (hs : (s.regulator x).service = .free) (others : ∀ k, (s.regulator x).needs.get k ≠ .fill)
    (hq : s.pneu.queue = []) (hh : s.pneu.holder = none) (starved : s.budget.cEff ≤ s.overhead) :
    ∃ e, handSetpoint x c old (s.setpoint x c).value s = e ∧ e.reports = s.reports ∧ e.releases = s.releases ∧
      e.setpoint x c = s.setpoint x c ∧ e.need x c = .fill ∧ (e.regulator x).service = .waiting c ∧
      e.pneu.queue = [requestEntry (.support x) (cellBit c) (s.setpoint x c).value] ∧ e.pneu.holder = none := by
  have own : (s.setNeed x c .fill).regulator x = { s.regulator x with needs := (s.regulator x).needs.set c .fill } :=
    State.regulator_modRegulator s x _
  have served : ((s.setNeed x c .fill).setService x (.waiting c)).regulator x =
      { s.regulator x with needs := (s.regulator x).needs.set c .fill, service := .waiting c } := by
    unfold State.setService
    rw [State.regulator_modRegulator, own]
  have selected := selectCell_starved (s := s.setNeed x c .fill) (x := x) (k := c) ho (by rw [own]; exact hs)
    (by rw [own]; exact Four.get_set_same _ _ _) (fun d hd => by
      rw [own]
      refine fun same => others d ((Four.get_set_other _ _ _ _ fun e => ?_).symm.trans same)
      rw [e] at hd
      exact Nat.lt_irrefl _ hd) hq hh starved
  refine ⟨_, (handSetpoint_raised ho hn hv).trans selected, passCore_reports.1, passCore_reports.2, ?_, ?_, ?_, ?_, ?_⟩
  · rw [passCore_touches]
    rfl
  · unfold State.need
    rw [regulator_passCore]
    refine Eq.trans (congrArg (fun r : Regulator => r.needs.get c) served) ?_
    exact Four.get_set_same _ _ _
  · rw [regulator_passCore]
    exact congrArg Regulator.service served
  · rw [passCore_pneu]
    rfl
  · rw [passCore_pneu]
    exact hh

end

/-- Settles O16: the refusal, the stored setpoint, and what its regulator makes of it. -/
theorem setSupportStores : Obligations.SetSupportStores := by
  intro m x c value s h hw v code cmd r
  let u : State := { s with bus := .idle }
  refine ⟨fun hm hv => taken_refused h ?_, fun hm => ?_⟩
  · rw [takeSetSupport_eq (u := { s with bus := .idle }) hw]
    exact congrArg (recordResult _ _ _) (if_pos ⟨hm, hv⟩)
  · let w := State.supportSet u m x c v
    have effect : takeSetSupport m (byteOf (seatCode x)) (byteOf (cellNumber c)) value u =
        recordResult m 0x12 (some x) (handSetpoint x c (s.setpoint x c).value v w, code) := by
      rw [takeSetSupport_eq (u := u) hw]
      refine congrArg (recordResult _ _ _) (if_neg fun e => ?_)
      rcases hm with k | k
      · exact absurd e.1 (by rw [show u.faultMark x c = false from k]; decide)
      · exact absurd e.2 (by rw [k]; decide)
    obtain ⟨pneu, reports, releases, regulators, results, params, budget⟩ := supportSet_keeps (s := u) (m := m) (x := x) (c := c) (n := v)
    have regulator : w.regulator x = s.regulator x := regulator_supportSet (s := u) x
    have occupancy : (w.seat x).occupancy = (s.seat x).occupancy := occupancy_supportSet.trans rfl
    have setpoint : w.setpoint x c = ⟨v, m.origin⟩ := setpoint_supportSet
    have need : w.need x c = s.need x c := congrArg (fun r : Regulator => r.needs.get c) regulator
    have stirs : Stirs (fun _ => True) w (handSetpoint x c (s.setpoint x c).value v w) := stirs_handSetpoint (.same w) x c _ _
    have unreported : w.unreported (.support x) := unreported_of_awake (reports.trans h.1.2.1)
    have window : w.ventWindow = s.ventWindow := by
      unfold State.ventWindow State.param
      rw [params]
    refine ⟨fun ho => ?_, ?_, fun g p0 hg hp hr hs hn ho hv _ => ?_, fun ho hv hn hs _ => ?_, fun ho hv hn hs none_ quiet starved => ?_⟩
    · intro told
      have shown (e : State) (he : handSetpoint x c (s.setpoint x c).value v w = e) (hr : e.reports = s.reports)
          (hl : e.releases = s.releases) : exec cmd s = .next (recordResult m 0x12 (some x) (e, code)) :=
        taken_write_exact h (effect.trans (by rw [he])) hr hl
      have told' : recordResult m 0x12 (some x) (w, code) = told := by
        refine (recordResult_raise _ _ _ _ _ _ _ _ _).trans (congrArg (raiseSeat _ _ _ _) ?_)
        cases x <;> rfl
      have handed : handSetpoint x c (s.setpoint x c).value v w =
          if s.need x c = .vent then w else w.setNeed x c (if v = 0 then .held else .fill) := by
        unfold handSetpoint handEmpty
        rw [if_pos (occupancy.trans ho), need]
      by_cases vents : s.need x c = .vent
      · rw [if_pos vents] at handed ⊢
        exact (shown w handed reports releases).trans (congrArg _ told')
      · rw [if_neg vents] at handed ⊢
        rw [shown _ handed reports releases, ← told']
        rfl
    · have kept : w.asked x c ⟨v, m.origin⟩ := .inl setpoint
      obtain ⟨t, ht, law, followed⟩ := asked_keep.taken_write_law (fun _ _ k => k) h effect stirs results
        (asked_keep.handSetpoint trivial _ _ (by
          rcases cutShort_cases x c w with e | ⟨g, p0, -, -, -, e⟩
          · rw [e]
            exact kept
          · rw [e]
            refine kept.of_same rfl ?_
            unfold State.faultMark
            rw [State.regulator_modRegulator]
            rfl) kept)
      refine ⟨t, ht, ?_, law, ?_, ?_⟩
      · exact (results_of_bystander followed.bystander).trans rfl
      · exact followed.told (v := u.setSetpoint x c ⟨v, m.origin⟩) rfl rfl rfl
      · refine followed.bystander.trans ((congrArg (State.withResults · _) (bystander_raiseSeat _ _ _ _ _)).trans ?_)
        cases x <;> rfl
    · let k := Regulator.keepCut c ⟨g.entry.target, p0, decide (g.riseTimer = some 0)⟩ (s.regulator x)
      have cut : (cutShort x c w).cutsAre x k.cuts := by
        rw [cutShort_holding (s := w) ((congrArg Pneumatic.holder pneu).trans hg) hp hr]
        unfold State.cutsAre
        rw [State.regulator_modRegulator, regulator]
      have served := handSetpoint_served (s := w) (by rw [occupancy]; exact ho) (by rw [regulator]; exact hs) (need.trans hn) hv
      have handed : (handSetpoint x c (s.setpoint x c).value v w).cutsAre x k.cuts := by
        rw [served]
        split
        · exact cutsAre_keep.fill trivial _ _ (cellBit_ne_zero c) (cutsAre_keep.setService trivial _ cut)
        · exact cutsAre_keep.selectCell trivial (cutsAre_keep.joinVent trivial c (cutsAre_keep.setService trivial _
            (cutsAre_keep.withdrawn trivial cut)))
      obtain ⟨t, ht, law, -⟩ := cutsAre_keep.taken_write_law (fun _ _ k => k) h effect stirs results handed
      have cuts (d : HoldCell) := (congrArg (Four.get · d) law).trans (keepCut_cuts c d _ (s.regulator x))
      refine ⟨t, ht, (cuts c).trans (if_pos rfl), fun d hd => (cuts d).trans (if_neg hd), fun low => ?_⟩
      let z := (withdraw (.support x) (cutShort x c w)).setService x .free
      have rest : (withdraw (.support x) (cutShort x c w)).unreported (.support x) := (unreported_keep _).withdrawn trivial (by
        unfold State.unreported
        rw [show (cutShort x c w).reports = w.reports by rcases cutShort_cases x c w with e | ⟨_, _, -, -, -, e⟩ <;> rw [e] <;> rfl]
        exact unreported)
      have stored : z.setpoint x c = ⟨v, m.origin⟩ := by
        refine Eq.trans ?_ setpoint
        show ((withdraw (.support x) (cutShort x c w)).seats.get x).setpoints.get c = _
        rw [seats_withdraw]
        rcases cutShort_cases x c w with e | ⟨_, _, -, -, -, e⟩ <;> rw [e] <;> rfl
      have stands := ventStands_selectCell (joinVent_stands (s := z) (x := x) (c := c) (by
        show ((State.setService _ x .free).regulator x).service.cell ≠ _
        unfold State.setService
        rw [State.regulator_modRegulator]
        exact fun e => nomatch e) rest)
      rw [stored, ← (served.trans (if_neg (by omega)) :)] at stands
      obtain ⟨q, hq, law, -⟩ := ventStands_keep.taken_write_law
        (fun _ r => cellStands_withResults r) h effect stirs results stands
      cases Host.Outcome.next.inj (ht.symm.trans hq)
      exact ⟨law.need, law.setpoint⟩
    · have stands := joinVent_stands (s := w) (c := c) (by rw [regulator]; exact hs) unreported
      rw [← handSetpoint_lowered (by rw [occupancy]; exact ho) (by rw [regulator]; exact hs) (need.trans hn) hv, setpoint, window] at stands
      obtain ⟨t, ht, law, -⟩ := ventStands_keep.taken_write_law
        (fun _ r => cellStands_withResults r) h effect stirs results stands
      exact ⟨t, ht, law.setpoint, law.need, law.op trivial⟩
    · obtain ⟨queue, holder, -⟩ := (airQuiet_iff s).mp quiet
      obtain ⟨e, handed, same, released, stored, filled, service, waits, none'⟩ := handSetpoint_starved (s := w) (c := c)
        (by rw [occupancy]; exact ho) (need.trans hn) (by rw [setpoint]; exact hv) (by rw [regulator]; exact hs)
        (by rw [regulator]; exact none_) ((congrArg Pneumatic.queue pneu).trans queue) ((congrArg Pneumatic.holder pneu).trans holder)
        (by
          rw [budget, show w.overhead = s.overhead by unfold State.overhead State.param; rw [params]]
          exact starved)
      rw [setpoint] at handed stored waits
      rw [handed] at effect
      exact ⟨_, taken_write_exact h effect (same.trans reports) (released.trans releases), stored, filled, service,
        waits.trans (by
          have small : min v 400 = v := Nat.min_eq_left (Nat.le_trans (Nat.min_le_left _ _) (by decide))
          unfold requestEntry
          rw [small]), none'⟩

end Sys2Proof.Machine
end
section
/-! PROOFS. The arbiter's choice and grant at a vent's end (spec/05 R92, R98 to R102; for O47). -/
namespace Sys2Proof.Machine

/-! ## The choice (spec/05 R98) -/

section

variable {s : State} {e : Entry}

theorem select_none (h : s.pneu.holder ≠ none ∨ s.budget.result.permitted = false ∨ choose s = none) : select s = s := by
  simp only [select, arbitrate, Bool.false_eq_true, if_false]
  split
  · rename_i may
    obtain ⟨free, permitted, -⟩ := (maySelect_iff s).mp may
    rcases h with k | k | k
    · exact absurd free k
    · rw [permitted] at k
      cases k
    · rw [k]
  · rfl

/-- A grant with the selector elsewhere orders it to the entry's seat; at its seat the fill begins, or ends at its start check. -/
theorem select_some (hh : s.pneu.holder = none) (hp : s.budget.result.permitted = true) (hr : s.releases = .select)
    (hc : choose s = some e) : select s =
      if s.pneu.selector = .atRest (seatPos e.requester.seat) then
        match startCheck (.granted e) (s.manifoldOf e.requester.seat) with
        | some how => arbitrate s.pneu.queue.length true (endFill (.granted e) how (takeP0 (.granted e) (grantEntry (.granted e) s)))
        | none => startCompressor (takeP0 (.granted e) (grantEntry (.granted e) s))
      else orderSelector (seatPos e.requester.seat) (grantEntry (.granted e) s) := by
  have may : s.maySelect = true := (maySelect_iff s).mpr ⟨hh, hp, by rw [hr]; exact fun k => nomatch k⟩
  simp only [select, arbitrate, Bool.false_eq_true, if_false]
  rw [if_pos may, hc] <;> rfl

/-- The air of a part that has granted the entry. -/
def State.airGranted (s : State) (e : Entry) : Pneumatic :=
  { s.pneu with
    queue := s.pneu.queue.filter fun q => decide (q.requester ≠ e.requester)
    rotation :=
      if s.pneu.lastSeat ≠ some e.requester.seat then 1
      else if e.resumed then s.pneu.rotation else min s.rotationLimit (s.pneu.rotation + 1)
    lastSeat := some e.requester.seat
    holder := some { entry := e, p0 := none, riseTimer := none, fillTimer := none, elapsed := 0 } }

theorem grantEntry_eq (s : State) (e : Entry) :
    grantEntry (.granted e) s = (s.modPneu fun _ => s.airGranted e).report (.granted e.requester) := by
  have out : removeEntry e.requester s.pneu.queue = s.pneu.queue.filter fun q => decide (q.requester ≠ e.requester) :=
    List.filter_congr fun q _ => by by_cases k : q.requester = e.requester <;> simp [k]
  have air : ({ countGrant s.rotationLimit e s.pneu with
      queue := removeEntry e.requester s.pneu.queue, holder := some (Holder.granted e) } : Pneumatic) = s.airGranted e := by
    rw [out]
    unfold countGrant State.airGranted
    by_cases same : s.pneu.lastSeat = some e.requester.seat
    · rw [if_pos same, if_neg (Classical.not_not.mpr same), ← same]
      split <;> rfl
    · rw [if_neg same, if_pos same]
      rfl
  unfold grantEntry State.modPneu
  exact congrArg (fun p => State.report { s with pneu := p } _) air

/-! ## The grant at its requester -/

theorem cursorGranted_waiting {x : Seat} (hs : (s.cursor x).state = .running) (hp : (s.cursor x).phase = .fillWait) :
    cursorGranted x s = s.modCursor x fun c => { c with phase := .filling } := if_pos ⟨hs, hp⟩

theorem supportGranted_waiting {x : Seat} {c : HoldCell} (h : (s.regulator x).service = .waiting c) :
    supportGranted x s = s.setService x (.filling c) := by
  unfold supportGranted
  rw [h]

/-- GRANTED reaches the requester's record alone. -/
theorem granted_keeps (r : Requester) (s : State) : (takeReport (.granted r) s).pneu = s.pneu ∧
    (takeReport (.granted r) s).reports = s.reports ∧ (takeReport (.granted r) s).releases = s.releases := by
  cases r with
  | massage x =>
    show (cursorGranted x s).pneu = _ ∧ (cursorGranted x s).reports = _ ∧ (cursorGranted x s).releases = _
    unfold cursorGranted
    split <;> exact ⟨rfl, rfl, rfl⟩
  | support x =>
    show (supportGranted x s).pneu = _ ∧ (supportGranted x s).reports = _ ∧ (supportGranted x s).releases = _
    unfold supportGranted
    split <;> exact ⟨rfl, rfl, rfl⟩

/-- The command leaves the air `q`, and the requester has taken GRANTED. -/
def State.takesGrant (s : State) (f : State → State) (r : Requester) (q : Pneumatic) : Prop :=
  ∃ t, taken f s = .next t ∧ t.pneu = q ∧ t.bystander = s.bystander ∧
    (∀ y, r = .massage y → (s.cursor y).state = .running → (s.cursor y).phase = .fillWait →
      t.cursor y = { s.cursor y with phase := .filling }) ∧
    ∀ y c, r = .support y → (s.regulator y).service = .waiting c →
      t.regulator y = { s.regulator y with service := .filling c }

/-- A command that grants a fill and ends none: its requester takes GRANTED. -/
theorem taken_granted {f : State → State} {q : Pneumatic} {r : Requester} (h : s.awake)
    (e : f s = State.report { s with pneu := q } (.granted r)) (hm : q.manifold = s.pneu.manifold) : s.takesGrant f r q := by
  let u : State := { s with pneu := q }
  obtain ⟨pneu, reports, releases⟩ := granted_keeps r u
  have exactly := taken_one_report (u := u) h e h.2.1 rfl (reports.trans h.2.1) (releases.trans h.2.2)
  obtain ⟨t, ht, followed⟩ := taken_next f s h
  cases Host.Outcome.next.inj (exactly.symm.trans ht)
  refine ⟨_, exactly, pneu, ?_, fun y hr hs hp => ?_, fun y c hr hs => ?_⟩
  · rw [followed.bystander, e]
    exact bystander_modPneu s (fun _ => q) hm
  · subst hr
    show (cursorGranted y u).cursor y = _
    rw [cursorGranted_waiting (s := u) hs hp, State.cursor_modCursor]
    rfl
  · subst hr
    show (supportGranted y u).regulator y = _
    rw [supportGranted_waiting (s := u) hs]
    exact State.regulator_modRegulator u y _

section

variable {f : State → State} {p : Pneumatic} (h : s.awake) (effect : f s = select { s with pneu := p })
  (hm : p.manifold = s.pneu.manifold) (hh : p.holder = none) (hp : s.budget.result.permitted = true)
  (hc : choose { s with pneu := p } = some e)
include h effect hm hh hp hc

/-- A grant whose seat the selector is not at rest at (spec/05 R88, R100). -/
theorem taken_grant_ordered (hs : p.selector ≠ .atRest (seatPos e.requester.seat)) : s.takesGrant f e.requester
    { State.airGranted { s with pneu := p } e with
      selector := if p.selector.dest = seatPos e.requester.seat then p.selector else .moving (seatPos e.requester.seat) s.switchTime } := by
  have picks := select_some (s := { s with pneu := p }) hh hp h.2.2 hc
  rw [if_neg (show ({ s with pneu := p } : State).pneu.selector ≠ _ from hs), grantEntry_eq] at picks
  refine taken_granted h ((effect.trans picks).trans ?_) hm
  unfold orderSelector
  by_cases same : p.selector.dest = seatPos e.requester.seat
  · rw [if_pos same]
    exact if_pos same
  · rw [if_neg same]
    exact if_neg same

/-- A grant at whose seat the selector rests, and whose start check passes (spec/05 R100, R102). -/
theorem taken_grant_fills (hs : p.selector = .atRest (seatPos e.requester.seat)) (h5 : s.pneu.manifold.get e.requester.seat < 500)
    (hlow : s.pneu.manifold.get e.requester.seat < e.target) : s.takesGrant f e.requester
    { State.airGranted { s with pneu := p } e with
      compressor := true
      holder := some
        { entry := e, p0 := some (s.pneu.manifold.get e.requester.seat), fillTimer := some s.maximumFill, elapsed := 0
          riseTimer := if s.riseWindow < s.maximumFill then some s.riseWindow else none } } := by
  have picks := select_some (s := { s with pneu := p }) hh hp h.2.2 hc
  have manifold : State.manifoldOf { s with pneu := p } e.requester.seat = s.pneu.manifold.get e.requester.seat := by
    unfold State.manifoldOf
    rw [hm]
  have passes : startCheck (.granted e) (State.manifoldOf { s with pneu := p } e.requester.seat) = none := by
    rw [manifold]
    exact (if_neg (Nat.not_le.mpr h5)).trans (if_neg (Nat.not_le.mpr hlow))
  rw [if_pos (show ({ s with pneu := p } : State).pneu.selector = _ from hs), passes, grantEntry_eq] at picks
  refine taken_granted h ((effect.trans picks).trans ?_) hm
  rw [← manifold]
  rfl

end

end

section

variable {s : State} {e : Entry}

/-! ## A grant whose start check ends its fill (spec/05 R102) -/

/-- Two reports, of which the second is taken beside what the first one left. -/
theorem taken_two_reports {f : State → State} {u v z : State} {a b : Report} (h : s.awake) (e : f s = { u with reports := [a, b] })
    (ha : takeReport a { u with reports := [b] } = { v with reports := [b] }) (hv : v.reports = []) (hb : takeReport b v = z)
    (hz : z.reports = []) (hl : z.releases = .select) : taken f s = .next z := by
  have settled : runEffect f s = z := by
    unfold runEffect
    rw [e]
    show settle 127 (takeReport a { u with reports := [b] }) = z
    rw [ha]
    show settle 126 (takeReport b { v with reports := [] }) = z
    rw [← hv]
    show settle 126 (takeReport b v) = z
    rw [hb, settle_nil _ _ hz]
  rw [taken_awake f s h, settled, if_neg (by rw [hl]; decide)]
  exact congrArg Host.Outcome.next (releases_eta z hl)

/-- The part `u` once the only entry in its queue has been granted and has ended at its start check. -/
structure Spent (s u : State) (e : Entry) (how : FillEnd) : Prop where
  reports : u.reports = []
  releases : u.releases = .select
  queue : u.pneu.queue = []
  holder : u.pneu.holder = none
  compressor : u.pneu.compressor = false
  lastSeat : u.pneu.lastSeat = some e.requester.seat
  rotation : u.pneu.rotation = (s.airGranted e).rotation
  cursor : ∀ x, u.cursor x = s.cursor x
  regulator : ∀ x, u.regulator x = s.regulator x
  burst : ∀ m, how = .overpressure m → e.cells ≠ 0 → (⟨.relief e.requester.seat, e.cells, s.ventWindow⟩ : VentOp) ∈ u.pneu.vents

theorem select_spent {how : FillEnd} (hh : s.pneu.holder = none) (hp : s.budget.result.permitted = true) (hr : s.releases = .select)
    (h0 : s.reports = []) (hq : s.pneu.queue = [e]) (hc : choose s = some e)
    (hs : s.pneu.selector = .atRest (seatPos e.requester.seat)) (hw : startCheck (.granted e) (s.manifoldOf e.requester.seat) = some how) :
    ∃ u, select s = { u with reports := [.granted e.requester, .ended e.requester how] } ∧ Spent s u e how := by
  let w := takeP0 (.granted e) ((s.modPneu fun _ => s.airGranted e).report (.granted e.requester))
  have none_ : w.pneu.queue = [] := by
    show s.pneu.queue.filter _ = []
    rw [hq]
    simp
  have effect : select s = finishFill (.granted e) how w := by
    rw [select_some hh hp hr hc, if_pos hs, hw, hq, grantEntry_eq]
    show arbitrate (0 + 1) true (endFill (.granted e) how w) = arbitrate ((endFill (.granted e) how w).pneu.queue.length + 1) true _
    rw [(endFill_keeps (.granted e) how w).2.1, none_]
    rfl
  have held : w.releases = .select := hr
  have before : w.reports = [.granted e.requester] := by
    show s.reports ++ _ = _
    rw [h0]
    rfl
  obtain ⟨releases, queue, holder, compressor⟩ := endFill_keeps (.granted e) how w
  have alone : finishFill (.granted e) how w = releaseTail (endFill (.granted e) how w) :=
    release_empty (queue.trans none_) (by rw [releases, held]; exact fun k => nomatch k)
  obtain ⟨tailReports, tailReleases, tailPneu⟩ := releaseTail_keeps (endFill (.granted e) how w)
  rw [← alone] at tailReports tailReleases tailPneu
  have kept : (endFill (.granted e) how w).pneu.lastSeat = some e.requester.seat ∧
      (endFill (.granted e) how w).pneu.rotation = (s.airGranted e).rotation := by
    unfold endFill
    dsimp only
    split <;> exact ⟨rfl, rfl⟩
  refine ⟨{ finishFill (.granted e) how w with reports := [] }, ?_, rfl, tailReleases.trans (releases.trans held), ?_, ?_, ?_, ?_, ?_,
    fun x => ?_, fun x => ?_, fun m hm hcells => ?_⟩
  · rw [effect]
    have two : (finishFill (.granted e) how w).reports = [.granted e.requester, .ended e.requester how] := by
      rw [tailReports, mem_reports_endFill, before]
      rfl
    rw [← two]
  · exact (congrArg Pneumatic.queue tailPneu).trans (queue.trans none_)
  · exact (congrArg Pneumatic.holder tailPneu).trans holder
  · exact (congrArg Pneumatic.compressor tailPneu).trans compressor
  · exact (congrArg Pneumatic.lastSeat tailPneu).trans kept.1
  · exact (congrArg Pneumatic.rotation tailPneu).trans kept.2
  · exact (stirs_finishFill (P := fun _ => False) (.same w) (.granted e) how).cursor_still x fun k => k
  · unfold State.regulator
    show (finishFill (.granted e) how w).regulators.get x = _
    rw [regulators_finishFill]
    rfl
  · subst hm
    have vents : (finishFill (.granted e) (.overpressure m) w).pneu.vents = (endFill (.granted e) (.overpressure m) w).pneu.vents :=
      (congrArg Pneumatic.vents tailPneu :)
    show _ ∈ (finishFill (.granted e) (.overpressure m) w).pneu.vents
    rw [vents]
    refine (mem_opsOf (o := .relief e.requester.seat).mp ?_).1
    rw [show (endFill (.granted e) (.overpressure m) w).pneu.opsOf (.relief e.requester.seat) = _ from
      opsOf_endFill_burst (g := .granted e) hcells]
    exact List.mem_singleton.mpr rfl

/-- A massage fill that its start check ends DONE: its step dwells (spec/05 R102, spec/07 R143). -/
theorem taken_spent_dwells {f : State → State} {u z : State} {x : Seat} {m : Nat} (h : s.awake)
    (e' : f s = { u with reports := [.granted e.requester, .ended e.requester (.done true m)] }) (sp : Spent z u e (.done true m))
    (hr : e.requester = .massage x) (hs : (z.cursor x).state = .running) (hp : (z.cursor x).phase = .fillWait)
    (hd : (z.cursor x).effDwell ≠ 0) : ∃ t, taken f s = .next t ∧ t.pneu = u.pneu ∧
      t.cursor x = { z.cursor x with phase := .dwell, phaseMs := 100 * (z.cursor x).effDwell } := by
  let v := u.modCursor x fun c => { c with phase := .filling }
  have own : v.cursor x = { z.cursor x with phase := .filling } := (State.cursor_modCursor u x _).trans (by rw [sp.cursor])
  have waits : cursorGranted x { u with reports := [.ended e.requester (.done true m)] } =
      { v with reports := [.ended e.requester (.done true m)] } :=
    cursorGranted_waiting (s := { u with reports := [.ended e.requester (.done true m)] })
      ((congrArg Cursor.state (sp.cursor x)).trans hs) ((congrArg Cursor.phase (sp.cursor x)).trans hp)
  have fill : (v.cursor x).fillPhase = true := by
    rw [own]
    exact fillPhase_of hs (.inr rfl)
  have outcome := cursorOutcome_dwells (s := v) (x := x) (how := .done true m) (atStart := true) rfl fill (by rw [own]; exact hd)
  rw [hr] at e' waits
  refine ⟨_, taken_two_reports (u := u) (v := v) h e' waits sp.reports outcome sp.reports sp.releases, rfl, ?_⟩
  rw [State.cursor_modCursor]
  exact (congrArg (Cursor.dwells true) own).trans rfl

/-- A massage fill that its start check ends OVERPRESSURE: its cursor faults (spec/05 R102, R106, spec/07 R151). -/
theorem taken_spent_faults {f : State → State} {u z : State} {x : Seat} {m : Nat} (h : s.awake)
    (e' : f s = { u with reports := [.granted e.requester, .ended e.requester (.overpressure m)] })
    (sp : Spent z u e (.overpressure m)) (hr : e.requester = .massage x) (hs : (z.cursor x).state = .running)
    (hp : (z.cursor x).phase = .fillWait) : ∃ t, taken f s = .next t ∧
      t.pneu = (startVent (.requester (.massage x)) massageCells u).pneu ∧ (t.cursor x).state = .fault ∧
      (t.cursor x).fault = .overpressure := by
  let v := u.modCursor x fun c => { c with phase := .filling }
  have own : v.cursor x = { z.cursor x with phase := .filling } := (State.cursor_modCursor u x _).trans (by rw [sp.cursor])
  have waits : cursorGranted x { u with reports := [.ended e.requester (.overpressure m)] } =
      { v with reports := [.ended e.requester (.overpressure m)] } :=
    cursorGranted_waiting (s := { u with reports := [.ended e.requester (.overpressure m)] })
      ((congrArg Cursor.state (sp.cursor x)).trans hs) ((congrArg Cursor.phase (sp.cursor x)).trans hp)
  have fill : (v.cursor x).fillPhase = true := by
    rw [own]
    exact fillPhase_of hs (.inr rfl)
  have outcome := (cursorOutcome_faults (s := v) (x := x) (how := .overpressure m) (code := .overpressure) rfl fill).trans
    (enterFault_quiet (s := v) .overpressure sp.queue sp.holder)
  have cursor : (startVent (.requester (.massage x)) massageCells (v.modCursor x (Cursor.faulted .overpressure))).cursor x =
      (v.cursor x).faulted .overpressure := State.cursor_modCursor v x _
  rw [hr] at e' waits
  refine ⟨_, taken_two_reports (u := u) (v := v) h e' waits sp.reports outcome (by rw [raiseSeat_touches]; exact sp.reports) (by rw [raiseSeat_touches]; exact sp.releases), ?_, ?_, ?_⟩
  · rw [raiseSeat_touches]
    rfl
  · rw [cursor_raiseSeat, cursor]
    rfl
  · rw [cursor_raiseSeat, cursor]
    rfl

/-- A holding cell's fill that its start check ends (spec/05 R102, spec/08 R163, R164). -/
theorem taken_spent_cell {f : State → State} {u z : State} {x : Seat} {c : HoldCell} {how : FillEnd} (h : s.awake)
    (e' : f s = { u with reports := [.granted e.requester, .ended e.requester how] }) (sp : Spent z u e how)
    (hr : e.requester = .support x) (hs : (z.regulator x).service = .waiting c) (alone : ∀ k, k ≠ c → z.need x k ≠ .fill) :
    (how.holds → ∃ t, taken f s = .next t ∧ t.pneu = u.pneu ∧ (t.regulator x).service = .free ∧ t.need x c = .held) ∧
    ∀ o, how.cellFault = some o → ∃ t a, taken f s = .next t ∧ t.pneu = (startVent (.requester (.support x)) a u).pneu ∧
      (t.regulator x).service = .free ∧ t.setpoint x c = ⟨0, .device⟩ ∧ t.faultMark x c = true ∧ t.need x c = .vent := by
  let v := u.setService x (.filling c)
  have own : v.regulator x = { z.regulator x with service := .filling c } :=
    (State.regulator_modRegulator u x _).trans (by rw [sp.regulator])
  have waits : supportGranted x { u with reports := [.ended e.requester how] } = { v with reports := [.ended e.requester how] } :=
    supportGranted_waiting (s := { u with reports := [.ended e.requester how] })
      ((congrArg Regulator.service (sp.regulator x)).trans hs)
  have service : (v.regulator x).service = .filling c := by rw [own]
  have fills (k : HoldCell) (hk : k ≠ c) : v.need x k ≠ .fill := by
    unfold State.need
    rw [own]
    exact alone k hk
  rw [hr] at e' waits
  refine ⟨fun hh => ?_, fun o ho => ?_⟩
  · refine ⟨_, taken_two_reports (u := u) (v := v) h e' waits sp.reports
      (supportOutcome_held hh service fills) sp.reports sp.releases, rfl, ?_, ?_⟩
    · rw [regulator_held]
    · unfold State.need
      rw [regulator_held]
      exact Four.get_set_same _ _ _
  · obtain ⟨p, faulted, reports, releases, -, setpoint, regulator, a, air⟩ :=
      supportOutcome_faulted (s := v) ho service fills sp.queue sp.holder
    refine ⟨_, a, taken_two_reports (u := u) (v := v) h e' waits sp.reports faulted
      (by rw [raiseSeat_touches]; exact reports.trans sp.reports) (by rw [raiseSeat_touches]; exact releases.trans sp.releases),
      ?_, ?_, ?_, ?_, ?_⟩
    · rw [raiseSeat_touches]
      exact air
    · rw [raiseSeat_touches]
      exact congrArg Regulator.service regulator
    · rw [raiseSeat_touches]
      exact setpoint
    · rw [raiseSeat_touches]
      exact (congrArg (fun r : Regulator => r.marks.get c) regulator).trans (Four.get_set_same _ _ _)
    · rw [raiseSeat_touches]
      exact (congrArg (fun r : Regulator => r.needs.get c) regulator).trans (Four.get_set_same _ _ _)

end

end Sys2Proof.Machine
end
section
/-! PROOFS. The end of a RELIEF or RESET vent, SUSPEND at a change to STOP, and the part kept apart (for O47). -/
namespace Sys2Proof.Machine

/-! ## The end of a RELIEF or RESET vent -/

section

variable {s : State} {o : VentOwner}

theorem endVent_device (ho : ∀ q, o ≠ .requester q) (h : ∃ v ∈ s.pneu.vents, v.owner = o ∧ v.left = 0) :
    endVent o s = select (s.closed o) := by
  obtain ⟨v, hv, owner, left⟩ := h
  have due : s.pneu.ventOver o = true := List.any_eq_true.mpr ⟨v, hv, by simp [owner, left]⟩
  unfold endVent
  rw [if_pos due]
  cases o with
  | requester q => exact absurd rfl (ho q)
  | relief x => rfl
  | reset => rfl

/-- The choice of the arbiter, step by step (spec/05 R98). -/
theorem choose_eq (s : State) : choose s =
    (parkingStep s.pneu (classStep (rotationStep s.pneu s.rotationLimit
      (s.pneu.queue.filter fun e => decide (ventedCells s.pneu.vents e.requester.seat &&& e.cells = 0))))).head? := by
  unfold choose
  rw [List.filter_congr fun e _ => eligible_eq s.pneu e]

end

/-! ## The permission withdrawn by a change to STOP (spec/04 R63, spec/05 R107) -/

section

variable {s : State} {v : Nat}

/-- The part after the pass of a change to STOP, before the permission of it is taken. -/
def State.stopPassed (s : State) (v : Nat) : State := passCore ((s.sampled v).bandChanged .stop)

theorem sampleSupply_stop (hl : 60 ≤ v) (hv : v < 90) (hb : s.supply.band ≠ .stop) :
    sampleSupply v s = takePermission (s.stopPassed v) := by
  have band : classify s.supply.band v = .stop := by
    rw [classify_eq, if_neg hb, if_pos hv]
  have changes : ¬ Band.stop = s.supply.band := fun e => hb e.symm
  unfold sampleSupply
  rw [if_neg (by omega)]
  dsimp only
  rw [band, if_neg changes]
  rfl

/-- What the pass of a change to STOP leaves: it refuses the pump. -/
structure Stopped (s u : State) : Prop where
  pneu : u.pneu = s.pneu
  cursors : u.cursors = s.cursors
  regulators : u.regulators = s.regulators
  reports : u.reports = s.reports
  releases : u.releases = s.releases
  permitted : u.budget.result.permitted = false
  demandSeen : u.budget.result.demandSeen = s.pumpDemand
  starved : u.budget.cEff ≤ u.overhead

theorem stopPassed_stopped : Stopped s (s.stopPassed v) := by
  let w := (s.sampled v).bandChanged .stop
  have kept : w = { recomputeCeiling { s.sampled v with supply := { (s.sampled v).supply with band := .stop } } with
      notices := w.notices } := raiseDevice_touches _ _ _
  have zero : w.budget.cEff = 0 := by
    rw [kept]
    show min s.budget.ceiling 0 - 20 * s.budget.derate = 0
    omega
  have same : w.pneu = s.pneu ∧ w.cursors = s.cursors ∧ w.regulators = s.regulators ∧ w.reports = s.reports ∧ w.releases = s.releases := by
    rw [kept]
    exact ⟨rfl, rfl, rfl, rfl, rfl⟩
  obtain ⟨pneu, cursors, regulators, reports, releases⟩ := same
  have starved := allocate_starved w.passInput (by
    show w.budget.cEff ≤ _
    rw [zero]
    exact Nat.zero_le _)
  have passed := (budget_passCore w).1.trans starved
  have asked : w.passInput.demand = s.pumpDemand := by
    show w.pumpDemand = _
    unfold State.pumpDemand
    rw [pneu]
  refine ⟨(passCore_pneu w).trans pneu, ?_, ?_, passCore_reports.1.trans reports, passCore_reports.2.trans releases, ?_, ?_, ?_⟩
  · show (passCore w).cursors = _
    rw [passCore_touches]
    exact cursors
  · show (passCore w).regulators = _
    rw [passCore_touches]
    exact regulators
  · exact congrArg Allocation.permitted passed
  · exact (congrArg Allocation.demandSeen passed).trans asked
  · show (passCore w).budget.cEff ≤ _
    rw [(budget_passCore w).2, zero]
    exact Nat.zero_le _

/-- With no grant held a change to STOP moves no air. -/
theorem sampleSupply_unheld (hl : 60 ≤ v) (hv : v < 90) (hb : s.supply.band ≠ .stop) (hh : s.pneu.holder = none) :
    sampleSupply v s = s.stopPassed v := by
  have stopped := stopPassed_stopped (s := s) (v := v)
  rw [sampleSupply_stop hl hv hb, takePermission_refused _ stopped.permitted, stopped.pneu, hh]

/-! ## SUSPEND at its requester (spec/07 R143, spec/08 R163) -/

theorem suspended_keeps (r : Requester) (s : State) : (takeReport (.ended r .suspend) s).pneu = s.pneu ∧
    (takeReport (.ended r .suspend) s).reports = s.reports ∧ (takeReport (.ended r .suspend) s).releases = s.releases ∧
    (takeReport (.ended r .suspend) s).budget = s.budget := by
  cases r with
  | massage x =>
    show (cursorOutcome x .suspend s).pneu = _ ∧ (cursorOutcome x .suspend s).reports = _ ∧ (cursorOutcome x .suspend s).releases = _ ∧
      (cursorOutcome x .suspend s).budget = _
    unfold cursorOutcome
    split <;> exact ⟨rfl, rfl, rfl, rfl⟩
  | support x =>
    show (supportOutcome x .suspend s).pneu = _ ∧ (supportOutcome x .suspend s).reports = _ ∧
      (supportOutcome x .suspend s).releases = _ ∧ (supportOutcome x .suspend s).budget = _
    unfold supportOutcome supportSuspended
    split
    · exact ⟨rfl, rfl, rfl, rfl⟩
    · dsimp only
      split <;> exact ⟨rfl, rfl, rfl, rfl⟩

theorem cursorOutcome_suspend {x : Seat} (h : (s.cursor x).fillPhase = true) :
    cursorOutcome x .suspend s = s.modCursor x fun c => { c with phase := .fillWait } := if_pos h

theorem supportOutcome_suspend {x : Seat} {c : HoldCell} (h : (s.regulator x).service = .filling c) :
    supportOutcome x .suspend s = s.setService x (.waiting c) := by
  unfold supportOutcome supportSuspended
  rw [h] <;> rfl

/-- What a SUSPEND of the holder leaves before its requester takes it: the request is back at the head of the queue. -/
theorem suspend_keeps (h : Holder) (hs : s.budget.cEff ≤ s.overhead) (hp : s.budget.result.permitted = false) :
    (suspend h s).pneu = { s.pneu with
      compressor := false, holder := none, queue := { h.entry with resumed := true } :: s.pneu.queue } ∧
    (suspend h s).reports = s.reports ++ [.ended h.entry.requester .suspend] ∧ (suspend h s).releases = s.releases ∧
    (suspend h s).budget.result.permitted = false ∧ (suspend h s).cursors = s.cursors ∧ (suspend h s).regulators = s.regulators := by
  let w := (s.modPneu fun p => { p with
    compressor := false, holder := none, queue := { h.entry with resumed := true } :: p.queue }).report (.ended h.entry.requester .suspend)
  have made : suspend h s = if s.pneu.queue.isEmpty then passCore w else w := rfl
  rw [made]
  split
  · refine ⟨passCore_pneu w, passCore_reports.1, passCore_reports.2, ?_, ?_, ?_⟩
    · exact congrArg Allocation.permitted ((budget_passCore w).1.trans (allocate_starved w.passInput hs))
    · rw [passCore_touches]
      rfl
    · rw [passCore_touches]
      rfl
  · exact ⟨rfl, rfl, rfl, hp, rfl, rfl⟩

/-- A change to STOP suspends the grant that is held. -/
theorem taken_suspends {h : Holder} (ha : s.awake) (hl : 60 ≤ v) (hv : v < 90) (hb : s.supply.band ≠ .stop)
    (hh : s.pneu.holder = some h) : ∃ t, exec (.supplySample v) s = .next t ∧
      t.pneu = { s.pneu with
        compressor := false, holder := none, queue := { h.entry with resumed := true } :: s.pneu.queue } ∧
      t.budget.result.permitted = false ∧
      (∀ y, h.entry.requester = .massage y → (s.cursor y).fillPhase = true →
        t.cursor y = { s.cursor y with phase := .fillWait }) ∧
      ∀ y c, h.entry.requester = .support y → (s.regulator y).service = .filling c →
        t.regulator y = { s.regulator y with service := .waiting c } := by
  have stopped := stopPassed_stopped (s := s) (v := v)
  have effect : sampleSupply v s = suspend h (s.stopPassed v) := by
    rw [sampleSupply_stop hl hv hb, takePermission_refused _ stopped.permitted, stopped.pneu, hh]
  obtain ⟨pneu, reports, releases, permitted, cursors, regulators⟩ := suspend_keeps h stopped.starved stopped.permitted
  rw [← effect] at pneu reports releases permitted cursors regulators
  rw [stopped.pneu] at pneu
  let u : State := { sampleSupply v s with reports := [] }
  have one : sampleSupply v s = u.report (.ended h.entry.requester .suspend) := by
    have single : (sampleSupply v s).reports = [.ended h.entry.requester .suspend] := by
      rw [reports, stopped.reports, ha.2.1]
      rfl
    show sampleSupply v s = { sampleSupply v s with reports := [.ended h.entry.requester .suspend] }
    rw [← single]
  obtain ⟨pneu', reports', releases', budget'⟩ := suspended_keeps h.entry.requester u
  have exactly := taken_one_report (u := u) ha one rfl rfl reports' (releases'.trans (releases.trans (stopped.releases.trans ha.2.2)))
  have cursor (y : Seat) : u.cursor y = s.cursor y := by
    show (sampleSupply v s).cursors.get y = _
    rw [cursors, stopped.cursors]
    rfl
  have regulator (y : Seat) : u.regulator y = s.regulator y := by
    show (sampleSupply v s).regulators.get y = _
    rw [regulators, stopped.regulators]
    rfl
  refine ⟨_, exactly, pneu'.trans pneu, ?_, fun y hr hf => ?_, fun y c hr hs => ?_⟩
  · rw [budget']
    exact permitted
  · rw [hr]
    show (cursorOutcome y .suspend u).cursor y = _
    rw [cursorOutcome_suspend (by rw [cursor]; exact hf), State.cursor_modCursor, cursor]
  · rw [hr]
    show (supportOutcome y .suspend u).regulator y = _
    rw [supportOutcome_suspend (by rw [regulator]; exact hs)]
    unfold State.setService
    rw [State.regulator_modRegulator, regulator]

end

/-! ## The part kept apart (spec/05 R107, notes/assumptions/43.md) -/

/-- A command of a moment in which a release has granted an entry, by the two parts it is taken by. -/
theorem exec_apart {c : Instr} {p : Part} {s t u : State} (hp : s.powered = true) (hq : p.powered = true) (ha : s.releases = .apart p)
    (hon : ∀ ads l r v, c ≠ .powerOn ads l r v) (hoff : c ≠ .lossOfSupply) (ht : exec c { s with releases := .select } = .next t)
    (hu : exec c (s.shutApart p) = .next u) : exec c s = .next
      (if p.budget.result.permitted = true ∧ u.budget.result.demandSeen = true ∧ u.budget.result.permitted = false then
        { u with releases := .select }
      else { t with releases := if t.powered = true then .apart u.toPart else .select }) := by
  rw [exec_eq_taken c _ hon hoff] at ht hu ⊢
  rw [taken_shut (effectOf c) (s.shutApart p) hq rfl] at hu
  cases hu
  rw [taken_selecting (effectOf c) (s := { s with releases := .select }) hp (fun e => nomatch e) (fun _ e => nomatch e)] at ht
  cases ht
  rw [taken_apart (effectOf c) p s hp ha]
  refine congrArg Host.Outcome.next ?_
  have same : withdrawsPump p (runEffect (effectOf c) (s.shutApart p)).toPart = decide (p.budget.result.permitted = true ∧
      (runEffect (effectOf c) (s.shutApart p)).budget.result.demandSeen = true ∧
      (runEffect (effectOf c) (s.shutApart p)).budget.result.permitted = false) := by
    unfold withdrawsPump
    simp [Bool.and_assoc]
  rw [same]
  simp only [decide_eq_true_eq]
  rfl

end Sys2Proof.Machine
end
section
/-! PROOFS. A release that falls together with a change to STOP (spec/05 R107, notes/assumptions/43.md), and O47. -/
namespace Sys2Proof.Machine

/-! ## The mark of a release that has selected -/

theorem selected_keep : MoveKeep (fun _ => True) (fun s => s.releases = .selected) where
  releases _ _ hn h := absurd h hn
  pass s h := passCore_reports.2.trans h
  grant _ _ _ _ h := h
  ended g how s _ _ h := (endFill_keeps g how s).1.trans h
  requeued _ _ _ h := h
  ask _ _ := ⟨fun _ _ _ _ _ h => h, fun _ _ _ _ h => h, fun _ _ _ _ h => h, fun _ h => h, fun _ h => h⟩
  vent _ _ _ _ _ h := h

/-- A law that all the requesters keep, through all the reports. -/
theorem MoveKeep.settle {P : State → Prop} (K : MoveKeep (fun _ => True) P) (underfill : ∀ x s, P s → P (countUnderfill x s))
    (taken : ∀ s l, P s → P { s with reports := l }) (n : Nat) {s : State} (h : P s) : P (settle n s) := by
  induction n generalizing s with
  | zero => exact h
  | succ n ih =>
    unfold Machine.settle
    split
    · exact h
    · exact ih (K.takeReport underfill _ trivial (taken _ _ h))

section

variable {s : State}

/-- A release grants no entry, or it is marked as having selected. -/
theorem release_cases (h : s.releases = .select) : release s = releaseTail s ∨
    ((release s).releases = .selected ∧ s.pneu.queue ≠ [] ∧ s.budget.result.permitted = true) := by
  have open_ : shutAtRelease s = s := if_neg (by rw [h]; exact fun e => nomatch e)
  by_cases may : s.maySelect = true
  · cases hc : choose s with
    | none =>
      refine .inl ?_
      unfold release
      simp only [arbitrate, if_true]
      rw [open_, hc]
      exact ite_self _
    | some e =>
      refine .inr ⟨?_, fun hq => ?_, ((maySelect_iff s).mp may).2.1⟩
      · have marked : markSelected s = { s with releases := .selected } := if_pos h
        have may' : State.maySelect { s with releases := .selected } = true := by
          obtain ⟨holder, permitted, -⟩ := (maySelect_iff s).mp may
          exact (maySelect_iff _).mpr ⟨holder, permitted, fun e => nomatch e⟩
        have again : release s = release { s with releases := .selected } := by
          have still : shutAtRelease { s with releases := .selected } = { s with releases := .selected } := if_neg fun e => nomatch e
          have kept : markSelected { s with releases := .selected } = { s with releases := .selected } := if_neg fun e => nomatch e
          have chosen : choose { s with releases := .selected } = some e := hc
          unfold release
          simp only [arbitrate, if_true]
          rw [open_, still, if_pos may, if_pos may', hc, chosen, marked, kept]
          rfl
        rw [again]
        exact selected_keep.release (s := { s with releases := .selected }) rfl
      · have waits := (choose_mem hc).1
        rw [hq] at waits
        cases waits
  · refine .inl ?_
    unfold release
    simp only [arbitrate, if_true]
    rw [open_, if_neg may]

/-- A release that is to select no holder shuts the arbiter. -/
theorem release_armed (h : s.releases = .armed) : release s = releaseTail { s with releases := .shut } := by
  have shut : shutAtRelease s = { s with releases := .shut } := if_pos h
  unfold release
  simp only [arbitrate, if_true]
  rw [shut, if_neg (by rw [maySelect_shut _ rfl]; decide)]

/-! ## The release that selects no holder -/

theorem pneu_releaseTail (s : State) : (releaseTail s).pneu = { s.pneu with
    selector := if s.parksNowhere = true then
        if s.pneu.selector.dest = .neutral then s.pneu.selector else .moving .neutral s.switchTime
      else s.pneu.selector } := by
  have parked : (if s.parksNowhere then orderSelector .neutral s else s).pneu = { s.pneu with
      selector := if s.parksNowhere = true then
          if s.pneu.selector.dest = .neutral then s.pneu.selector else .moving .neutral s.switchTime
        else s.pneu.selector } := by
    unfold orderSelector
    split
    · split <;> rfl
    · rfl
  unfold releaseTail
  dsimp only
  split
  · exact (passCore_pneu _).trans parked
  · exact parked

theorem releaseTail_rest (s : State) : (releaseTail s).supply = s.supply ∧ (releaseTail s).powered = s.powered ∧
    (releaseTail s).cursors = s.cursors ∧ (s.pneu.queue ≠ [] → (releaseTail s).budget = s.budget) := by
  have parked : (if s.parksNowhere then orderSelector .neutral s else s) =
      s.modPneu fun _ => (if s.parksNowhere then orderSelector .neutral s else s).pneu := by
    unfold orderSelector
    split
    · split <;> rfl
    · rfl
  unfold releaseTail
  dsimp only
  rw [parked]
  split
  · rename_i empty
    rw [passCore_touches]
    exact ⟨rfl, rfl, rfl, fun h => absurd (List.isEmpty_iff.mp empty) h⟩
  · exact ⟨rfl, rfl, rfl, fun _ => rfl⟩

/-- The part once such a release is over and its cursor dwells. -/
structure Dwelt (v u : State) (x : Seat) : Prop where
  reports : u.reports = []
  releases : u.releases = v.releases
  pneu : u.pneu = (releaseTail v).pneu
  budget : u.budget = (releaseTail v).budget
  supply : u.supply = v.supply
  powered : u.powered = v.powered
  phase : (u.cursor x).phase = .dwell

theorem runEffect_dwelt {f : State → State} {v : State} {x : Seat} {m : Nat} (e : f s = releaseTail v)
    (hr : v.reports = [.ended (.massage x) (.done false m)]) (hf : (v.cursor x).fillPhase = true) (hd : (v.cursor x).effDwell ≠ 0) :
    Dwelt v (runEffect f s) x := by
  obtain ⟨reports, releases, -⟩ := releaseTail_keeps v
  obtain ⟨supply, powered, cursors, -⟩ := releaseTail_rest v
  let u : State := { releaseTail v with reports := [] }
  have cursor : u.cursor x = v.cursor x := by
    show (releaseTail v).cursors.get x = _
    rw [cursors]
    rfl
  have one : f s = u.report (.ended (.massage x) (.done false m)) := by
    rw [e]
    show _ = { releaseTail v with reports := [.ended (.massage x) (.done false m)] }
    rw [← hr, ← reports]
  have outcome := cursorOutcome_dwells (s := u) (x := x) (how := .done false m) (atStart := false) rfl
    (by rw [cursor]; exact hf) (by rw [cursor]; exact hd)
  rw [runEffect_one_report one rfl outcome rfl]
  refine ⟨rfl, releases, rfl, rfl, supply, powered, ?_⟩
  rw [State.cursor_modCursor]
  rfl

end

/-! ## A sample that ends a fill, and a change to STOP after it -/

section

variable {s : State} {g : Holder} {x : Seat} {l r : Int} {v : Nat}

/-- The air once a fill has ended and no holder is selected. -/
def State.airReleased (s : State) (l r : Int) : Pneumatic := { s.pneu with
  manifold := ⟨min 1000 l.toNat, min 1000 r.toNat⟩, holder := none, compressor := false, parkNone := s.parksNowhere
  selector :=
    if s.parksNowhere = true then
      match s.pneu.selector with
      | .atRest .neutral => .atRest .neutral
      | .moving .neutral left => .moving .neutral left
      | _ => .moving .neutral s.switchTime
    else s.pneu.selector }

/-- The part at whose release the holder is selected. -/
def State.endedBy (s : State) (g : Holder) (l r : Int) (m : Nat) : State := endFill g (.done false m) (storeSamples l r s)

theorem pneu_endedBy (m : Nat) (k : Releases) :
    (releaseTail { s.endedBy g l r m with releases := k }).pneu = s.airReleased l r := by
  rw [pneu_releaseTail]
  have selector : (if s.pneu.selector.dest = .neutral then s.pneu.selector else .moving .neutral s.switchTime) =
      match s.pneu.selector with
      | .atRest .neutral => .atRest .neutral
      | .moving .neutral left => .moving .neutral left
      | _ => .moving .neutral s.switchTime := by
    cases s.pneu.selector with
    | atRest p => cases p <;> rfl
    | moving p left => cases p <;> rfl
  unfold State.airReleased
  rw [← selector]
  rfl

/-- What the fill's end leaves for the release. -/
structure Ending (s w : State) (x : Seat) (m : Nat) : Prop where
  reports : w.reports = [.ended (.massage x) (.done false m)]
  releases : w.releases = .select
  cursors : w.cursors = s.cursors
  supply : w.supply = s.supply
  powered : w.powered = true
  queue : w.pneu.queue = s.pneu.queue

theorem endedBy_ending (h : s.awake) (hr : g.entry.requester = .massage x) (m : Nat) : Ending s (s.endedBy g l r m) x m := by
  refine ⟨mem_reports_endFill.trans ?_, h.2.2, rfl, rfl, h.1, rfl⟩
  rw [hr]
  exact congrArg (· ++ _) h.2.1

/-- The sample ends the fill. -/
theorem sampleManifolds_ends (hg : s.pneu.holder = some g) (hp : g.p0 ≠ none) (hr : g.entry.requester = .massage x)
    (hc : ∀ y, (s.regulator y).cuts = Four.all none) (ht : g.entry.target ≤ (storeSamples l r s).manifoldOf x)
    (h5 : (storeSamples l r s).manifoldOf x < 500) :
    sampleManifolds l r s = release (s.endedBy g l r ((storeSamples l r s).manifoldOf x)) := by
  have seat : g.seat = x := congrArg Requester.seat hr
  have done : judgeSample g ((storeSamples l r s).manifoldOf g.seat) = some (.done false ((storeSamples l r s).manifoldOf x)) := by
    rw [seat]
    exact judgeSample_done h5 ht
  rw [sampleManifolds_eq hc]
  exact judgeFill_ends (s := storeSamples l r s) hg hp done

/-- It does so however the releases of the moment select. -/
theorem endedBy_releasing (m : Nat) (k : Releases) :
    State.endedBy { s with releases := k } g l r m = { s.endedBy g l r m with releases := k } := rfl

/-- A change to STOP taken after a release finds the air `air` as if the release had selected no holder. -/
theorem taken_stopped_after {f : State → State} {w : State} {m : Nat} {air : Pneumatic} (h : s.awake) (e : f s = release w)
    (armed : f { s with releases := .armed } = release { w with releases := .armed }) (en : Ending s w x m)
    (hf : (w.cursor x).fillPhase = true) (hd : (w.cursor x).effDwell ≠ 0)
    (ha : ∀ k, (releaseTail { w with releases := k }).pneu = air) (hn : air.holder = none) (hq : air.queue = w.pneu.queue)
    (hl : 60 ≤ v) (hv : v < 90) (hb : s.supply.band ≠ .stop) :
    ∃ t u, taken f s = .next t ∧ exec (.supplySample v) t = .next u ∧ (u.cursor x).phase = .dwell ∧ u.pneu = air := by
  have stopped (u : State) := stopPassed_stopped (s := u) (v := v)
  have dwells {u : State} (hu : (u.cursor x).phase = .dwell) : ((u.stopPassed v).cursor x).phase = .dwell := by
    unfold State.cursor at hu ⊢
    rw [(stopped u).cursors]
    exact hu
  rcases release_cases en.releases with alone | ⟨selected, waits, permitted⟩
  · have dwelt : Dwelt w (runEffect f s) x := runEffect_dwelt (e.trans alone) en.reports hf hd
    have same : (runEffect f s).pneu = air := by
      have shut := ha .select
      rw [releases_eta w en.releases] at shut
      exact dwelt.pneu.trans shut
    have released : (runEffect f s).releases = .select := dwelt.releases.trans en.releases
    have first : taken f s = .next (runEffect f s) := by
      rw [taken_awake f s h, if_neg (by rw [released]; decide)]
      exact congrArg Host.Outcome.next (releases_eta _ released)
    have effect : sampleSupply v (runEffect f s) = (runEffect f s).stopPassed v := sampleSupply_unheld hl hv
      (by rw [dwelt.supply, en.supply]; exact hb) (by rw [same]; exact hn)
    refine ⟨_, _, first, (taken_quiet (sampleSupply v) _ ⟨dwelt.powered.trans en.powered, dwelt.reports, released⟩ ?_ ?_).trans
      (congrArg Host.Outcome.next effect), dwells dwelt.phase, (stopped _).pneu.trans same⟩
    · rw [effect, (stopped _).reports]
      exact dwelt.reports
    · rw [effect, (stopped _).releases]
      exact released
  · have shut := armed.trans (release_armed rfl)
    have dwelt : Dwelt { w with releases := .shut } (runEffect f { s with releases := .armed }) x :=
      runEffect_dwelt shut en.reports hf hd
    have marked : (runEffect f s).releases = .selected := by
      refine selected_keep.settle (fun _ _ k => k) (fun _ _ k => k) reportBound ?_
      rw [e]
      exact selected
    let p : Part := (runEffect f { s with releases := .armed }).toPart
    let t : State := { runEffect f s with releases := .apart p }
    have first : taken f s = .next t := by
      rw [taken_awake f s h, if_pos marked]
    have powered : t.powered = true := by
      have stands : Stirs (fun _ => True) w (runEffect f s) := by
        unfold runEffect
        rw [e]
        exact (stirs_release (.same w)).trans (stirs_settle reportBound _)
      have kept : (runEffect f s).bystander.powered = w.bystander.powered := congrArg (·.powered) stands.bystander
      exact kept.trans en.powered
    have same : p.pneu = air := dwelt.pneu.trans (ha .shut)
    have effect : sampleSupply v (t.shutApart p) = (t.shutApart p).stopPassed v := sampleSupply_unheld hl hv
      (show p.supply.band ≠ .stop by rw [show p.supply = s.supply from dwelt.supply.trans en.supply]; exact hb)
      (show p.pneu.holder = none by rw [same]; exact hn)
    have run : runEffect (sampleSupply v) (t.shutApart p) = (t.shutApart p).stopPassed v := by
      unfold runEffect
      rw [effect]
      exact settle_nil _ _ (stopped (t.shutApart p)).reports
    have withdraws : withdrawsPump p ((t.shutApart p).stopPassed v).toPart = true := by
      have before : p.budget.result.permitted = true := by
        rw [show p.budget = w.budget from dwelt.budget.trans ((releaseTail_rest _).2.2.2 waits)]
        exact permitted
      have wanted : State.pumpDemand (t.shutApart p) = true := by
        show (!p.pneu.queue.isEmpty || _) = true
        rw [same, hq, List.isEmpty_eq_false_iff.mpr waits]
        rfl
      unfold withdrawsPump
      rw [before, (stopped (t.shutApart p)).demandSeen, wanted, (stopped (t.shutApart p)).permitted]
      rfl
    refine ⟨t, { (t.shutApart p).stopPassed v with releases := .select }, first, ?_, dwells (u := t.shutApart p) dwelt.phase,
      (stopped (t.shutApart p)).pneu.trans same⟩
    show taken (sampleSupply v) t = _
    rw [taken_apart (sampleSupply v) p t powered rfl, run, if_pos withdraws]

end

/-- Settles O47: the choice and the grant at a vent's end, SUSPEND, and the part kept apart. -/
theorem arbiterGrantsAndSuspends : Obligations.ArbiterGrantsAndSuspends := by
  unfold Obligations.ArbiterGrantsAndSuspends
  refine ⟨fun o s h hv ho => ?_, ?_, ?_, ?_⟩
  · intro p only eligibles rotated classed parked
    let u := s.closed o
    have vents : u.pneu = p := rfl
    have effect : endVent o s = select u := endVent_device ho hv
    have chosen : choose u = parked.head? := by
      have narrows (keep : Entry → Bool) (l : List Entry) : narrow keep l = only keep l := narrow_eq keep l
      have turn : rotationStep p s.rotationLimit eligibles = rotated := by
        unfold rotationStep
        show _ = (match p.lastSeat with
          | some x => if p.rotation = s.rotationLimit then only (fun e => decide (e.requester.seat ≠ x)) eligibles else eligibles
          | none => eligibles)
        cases p.lastSeat with
        | none => rfl
        | some x =>
          dsimp only
          rw [narrows]
          have same : (fun e : Entry => e.requester.seat != x) = fun e => decide (e.requester.seat ≠ x) := by
            funext e
            by_cases k : e.requester.seat = x <;> simp [k]
          rw [same]
      have kind : classStep rotated = classed := narrows _ _
      have parking : parkingStep p classed = parked := by
        unfold parkingStep
        show _ = (match p.selector with
          | .atRest pos => if p.parkNone then classed else only (fun e => decide (seatPos e.requester.seat = pos)) classed
          | .moving _ _ => classed)
        cases p.selector with
        | moving _ _ => rfl
        | atRest pos =>
          dsimp only
          rw [narrows]
          have same : (fun e : Entry => seatPos e.requester.seat == pos) = fun e => decide (seatPos e.requester.seat = pos) := by
            funext e
            by_cases k : seatPos e.requester.seat = pos <;> simp [k]
          rw [same]
      refine (choose_eq u).trans ?_
      show (parkingStep p (classStep (rotationStep p s.rotationLimit eligibles))).head? = _
      rw [turn, kind, parking]
    refine ⟨fun none_ => ?_, fun hh hp e he => ?_⟩
    · have still : endVent o s = u := effect.trans (select_none (none_.imp id (Or.imp id fun k => by rw [chosen, k]; rfl)))
      refine (taken_quiet (endVent o) s h (by rw [still]; exact h.2.1) (by rw [still]; exact h.2.2)).trans ?_
      rw [still]
      rfl
    · intro x granted takes
      refine ⟨fun pos hpos hne => ?_, fun pos left hpos => ?_, fun hpos h5 hlow => ?_, fun hpos hq => ?_⟩
      · have grants := taken_grant_ordered (p := p) h effect rfl hh hp (chosen.trans he) (by rw [hpos]; exact fun k => hne (Selector.atRest.inj k))
        rw [if_neg (by rw [hpos]; exact hne)] at grants
        exact grants
      · have grants := taken_grant_ordered (p := p) h effect rfl hh hp (chosen.trans he) (by rw [hpos]; exact fun k => nomatch k)
        rw [hpos] at grants
        exact grants
      · exact taken_grant_fills (p := p) h effect rfl hh hp (chosen.trans he) hpos h5 hlow
      · intro emptied
        have ends {how : FillEnd} (hw : startCheck (.granted e) (u.manifoldOf x) = some how) :=
          select_spent (s := u) hh hp h.2.2 h.2.1 hq (chosen.trans he) hpos hw
        have fits {t v : State} {how : FillEnd} (ht : exec (.ventEnd o) s = .next t) (sp : Spent u v e how) {k : VentOwner} {a : CellSet}
            (hpn : t.pneu = v.pneu ∨ t.pneu = (startVent k a v).pneu) : emptied t ∧ t.pneu.queue = [] := by
          have same : t.pneu.queue = v.pneu.queue ∧ t.pneu.holder = v.pneu.holder ∧ t.pneu.compressor = v.pneu.compressor ∧
              t.pneu.lastSeat = v.pneu.lastSeat ∧ t.pneu.rotation = v.pneu.rotation := by
            rcases hpn with k | k <;> rw [k] <;> exact ⟨rfl, rfl, rfl, rfl, rfl⟩
          obtain ⟨queue, holder, compressor, lastSeat, rotation⟩ := same
          obtain ⟨w, hw, followed⟩ := taken_next (endVent o) s h
          cases Host.Outcome.next.inj (ht.symm.trans hw)
          refine ⟨⟨ht, ?_, holder.trans sp.holder, compressor.trans sp.compressor, lastSeat.trans sp.lastSeat,
            rotation.trans sp.rotation⟩, queue.trans sp.queue⟩
          rw [followed.bystander, effect]
          exact (stirs_select (P := fun _ => True) (.same u)).bystander.trans (bystander_modPneu s _ rfl)
        have done (h5 : s.manifoldOf x < 500) (ht : e.target ≤ s.manifoldOf x) :
            startCheck (.granted e) (u.manifoldOf x) = some (.done true (s.manifoldOf x)) :=
          (if_neg (Nat.not_le.mpr h5)).trans (if_pos ht)
        have burst (h5 : 500 ≤ s.manifoldOf x) : startCheck (.granted e) (u.manifoldOf x) = some (.overpressure (s.manifoldOf x)) :=
          if_pos h5
        refine ⟨fun y hr hs hph => ⟨fun h5 ht hd => ?_, fun h5 hcells => ?_⟩, fun y c hr hs alone => ⟨fun h5 ht => ?_, fun h5 hcells => ?_⟩⟩
        · obtain ⟨v, made, sp⟩ := ends (done h5 ht)
          obtain ⟨t, ht, pneu, cursor⟩ := taken_spent_dwells h (effect.trans made) sp hr hs hph hd
          obtain ⟨fit, queue⟩ := fits (k := .reset) (a := 0) ht sp (.inl pneu)
          exact ⟨t, fit, queue, cursor⟩
        · obtain ⟨v, made, sp⟩ := ends (burst h5)
          obtain ⟨t, ht, pneu, state, fault⟩ := taken_spent_faults h (effect.trans made) sp hr hs hph
          obtain ⟨fit, queue⟩ := fits ht sp (.inr pneu)
          refine ⟨t, fit, queue, state, fault, ?_⟩
          have op := sp.burst _ rfl hcells
          rw [hr] at op
          rw [pneu]
          refine (mem_opsOf (o := .relief y).mp ?_).1
          rw [opsOf_startVent_other (o := .relief y) (k := .requester (.massage y)) _ _ fun k => nomatch k]
          exact mem_opsOf.mpr ⟨op, rfl⟩
        · obtain ⟨v, made, sp⟩ := ends (done h5 ht)
          obtain ⟨t, ht, pneu, service, need⟩ := (taken_spent_cell h (effect.trans made) sp hr hs alone).1 trivial
          obtain ⟨fit, queue⟩ := fits (k := .reset) (a := 0) ht sp (.inl pneu)
          exact ⟨t, fit, queue, service, need⟩
        · obtain ⟨v, made, sp⟩ := ends (burst h5)
          obtain ⟨t, a, ht, pneu, service, setpoint, mark, need⟩ := (taken_spent_cell h (effect.trans made) sp hr hs alone).2 _ rfl
          obtain ⟨fit, queue⟩ := fits ht sp (.inr pneu)
          exact ⟨t, fit, queue, service, setpoint, mark, need⟩
  · intro v g x l r s h hl hv hb hg hp hr hs hph hd _ hc read ht h5
    have value : (storeSamples l r s).manifoldOf x = read x := by cases x <;> rfl
    rw [← value] at ht h5
    have ends := sampleManifolds_ends (x := x) hg hp hr hc ht h5
    have en := endedBy_ending (l := l) (r := r) h hr ((storeSamples l r s).manifoldOf x)
    have armed := sampleManifolds_ends (s := { s with releases := .armed }) (x := x) hg hp hr hc ht h5
    rw [endedBy_releasing] at armed
    have cursor : (s.endedBy g l r ((storeSamples l r s).manifoldOf x)).cursor x = s.cursor x := by
      unfold State.cursor
      rw [en.cursors]
    exact taken_stopped_after (air := s.airReleased l r) h ends armed en (by rw [cursor]; exact fillPhase_of hs (.inr hph))
      (by rw [cursor]; exact hd) (pneu_endedBy _) rfl en.queue.symm hl hv hb
  · intro v g s h hl hv hb hg
    obtain ⟨t, ht, pneu, permitted, cursor, regulator⟩ := taken_suspends h hl hv hb hg
    exact ⟨t, ht, pneu, permitted, fun y hr hs hp => cursor y hr (fillPhase_of hs (.inr hp)), regulator⟩
  · exact fun c p s t u hp hq ha hon hoff ht hu => exec_apart hp hq ha hon hoff ht hu

end Sys2Proof.Machine
end
section
/-! PROOFS. WRITE PARAMETER: the value stored, and what its owner does at the write (O29). -/
namespace Sys2Proof.Machine

/-! ## What no owner changes -/

/-- The last results and the parameters stand. -/
def State.sameRegisters (s t : State) : Prop := t.results = s.results ∧ t.params = s.params

theorem sameRegisters_of_bystander {s t : State} (h : t.bystander = s.bystander) : s.sameRegisters t :=
  ⟨results_of_bystander h, params_of_bystander h⟩

theorem State.sameRegisters.trans {s t u : State} (h : s.sameRegisters t) (k : t.sameRegisters u) : s.sameRegisters u :=
  ⟨k.1.trans h.1, k.2.trans h.2⟩

theorem State.sameRegisters.pass {s t : State} (h : s.sameRegisters t) : s.sameRegisters (runPass t) :=
  h.trans (sameRegisters_of_bystander (bystander_runPass t))

theorem sameRegisters_onLoads {s t : State} (h : s.onLoads t) : s.sameRegisters t :=
  ⟨h.rest.2.2.1, h.rest.2.1⟩

theorem sameRegisters_limitWritten (z : ZoneId) (s : State) : s.sameRegisters (limitWritten z s) := by
  have evaluated := sameRegisters_onLoads (onLoads_evaluateZone z s)
  unfold limitWritten
  split
  · dsimp only
    split
    · exact evaluated
    · exact evaluated.pass
  · exact ⟨rfl, rfl⟩

theorem sameRegisters_stepZoneDown (z : ZoneId) (s : State) : s.sameRegisters (stepZoneDown z s) := by
  have loads := relevelled_onLoads s z ⟨(s.level z).value - 1, .device⟩ (restartStepDown (s.zone z))
  obtain ⟨-, params, results, -⟩ := loads.rest
  have stored : s.sameRegisters (s.relevelled z ⟨(s.level z).value - 1, .device⟩ (restartStepDown (s.zone z))) := ⟨results, params⟩
  exact (stored.trans (sameRegisters_of_bystander (bystander_raiseSeat _ _ _ _ _))).pass

theorem sameRegisters_stepDownWritten (z : ZoneId) (s : State) : s.sameRegisters (stepDownWritten z s) := by
  unfold stepDownWritten
  split
  · exact ⟨rfl, rfl⟩
  · split
    · exact sameRegisters_stepZoneDown z s
    · exact ⟨rfl, rfl⟩

theorem sameRegisters_stepDownTimeWritten (s : State) : s.sameRegisters (stepDownTimeWritten s) :=
  List.foldlRecOn allZones _ (motive := s.sameRegisters) ⟨rfl, rfl⟩
    fun u hu z _ => hu.trans (sameRegisters_stepDownWritten z u)

theorem sameRegisters_occupiedAgain (s : State) (x : Seat) : s.sameRegisters (s.occupiedAgain x) := by
  have loads := onLoads_occupyLoads x (raiseOccupancy x .occupied (setOccupancy x .occupied .stopped s))
  refine State.sameRegisters.trans ?_ (sameRegisters_onLoads loads)
  exact sameRegisters_of_bystander (s := setOccupancy x .occupied .stopped s) (bystander_raiseSeat _ _ _ _ _)

/-- A seat that enters OCCUPIED: what comes of which state, but for what a pass and a selection do. -/
theorem bystander_enterOccupied (x : Seat) (s : State) : (enterOccupied x s).bystander =
    (match (s.seat x).occupancy with
    | .occupied => s
    | .vacating => setOccupancy x .occupied .stopped s
    | .standby | .empty => s.occupiedAgain x).bystander := by
  unfold enterOccupied
  cases (s.seat x).occupancy with
  | occupied => rfl
  | vacating => exact bystander_runPass _
  | standby => exact bystander_runPass _
  | empty => exact (bystander_runPass _).trans (stirs_selectCell (P := fun _ => True) (.same (s.occupiedAgain x)) x).bystander

theorem sameRegisters_enterOccupied (x : Seat) (s : State) : s.sameRegisters (enterOccupied x s) := by
  refine State.sameRegisters.trans ?_ (sameRegisters_of_bystander (bystander_enterOccupied x s))
  cases (s.seat x).occupancy with
  | occupied => exact ⟨rfl, rfl⟩
  | vacating => exact ⟨rfl, rfl⟩
  | standby => exact sameRegisters_occupiedAgain s x
  | empty => exact sameRegisters_occupiedAgain s x

theorem occupancy_enterOccupied (x : Seat) (s : State) : ((enterOccupied x s).seat x).occupancy = .occupied := by
  have again : ((s.occupiedAgain x).seat x).occupancy = .occupied := by
    unfold State.seat
    rw [(occupiedAgain_rest s x).1]
    exact congrArg SeatRecord.occupancy (State.seat_modSeat s x _)
  refine (occupancy_of_bystander (bystander_enterOccupied x s) x).trans ?_
  cases ho : (s.seat x).occupancy with
  | occupied => exact ho
  | vacating => exact congrArg SeatRecord.occupancy (State.seat_modSeat s x _)
  | standby => exact again
  | empty => exact again

theorem sameRegisters_overrideWritten (x : Seat) (was : Bool) (s : State) : s.sameRegisters (overrideWritten x was s) := by
  unfold overrideWritten
  split
  · exact ⟨rfl, rfl⟩
  · split
    · exact sameRegisters_enterOccupied x s
    · split
      · exact State.sameRegisters.pass (s := s) ⟨rfl, rfl⟩
      · exact ⟨rfl, rfl⟩

/-! ## The owner of each number -/

section

variable {n : Nat} (was : Seat → Bool) (s : State)

/-- The numbers whose owners do nothing at a write. -/
theorem parameterWritten_plain (h : n ≤ 12 ∨ (23 ≤ n ∧ n ≤ 27) ∨ n = 43 ∨ (47 ≤ n ∧ n ≤ 51) ∨ n = 54 ∨ n = 55 ∨ n = 58 ∨ n = 59) :
    parameterWritten n was s = s := by
  rcases h with h | ⟨low, high⟩ | rfl | ⟨low, high⟩ | rfl | rfl | rfl | rfl
  · exact if_pos h
  · exact (if_neg (by omega)).trans ((if_neg (by omega)).trans (if_pos high))
  · rfl
  · obtain rfl | rfl | rfl | rfl | rfl : n = 47 ∨ n = 48 ∨ n = 49 ∨ n = 50 ∨ n = 51 := by omega
    all_goals rfl
  all_goals rfl

theorem parameterWritten_limit (z : ZoneId) : parameterWritten (13 + zoneNumber z) was s = limitWritten z s := by
  obtain ⟨x, p⟩ := z
  cases x <;> cases p <;> rfl

/-- The currents that a pass weighs by. -/
theorem parameterWritten_current (h : (28 ≤ n ∧ n ≤ 37) ∨ (39 ≤ n ∧ n ≤ 41) ∨ n = 45 ∨ n = 46) :
    parameterWritten n was s = runPass s := by
  rcases h with ⟨low, high⟩ | ⟨low, high⟩ | rfl | rfl
  · exact (if_neg (by omega)).trans ((if_neg (by omega)).trans ((if_neg (by omega)).trans (if_pos high)))
  · obtain rfl | rfl | rfl : n = 39 ∨ n = 40 ∨ n = 41 := by omega
    all_goals rfl
  · rfl
  · rfl

theorem parameterWritten_override (x : Seat) : parameterWritten (overrideNumber x) was s = overrideWritten x (was x) s := by
  cases x <;> rfl

/-- Every number belongs to one of these owners. -/
theorem parameter_cases (h : n ≤ 59) :
    (n ≤ 12 ∨ (23 ≤ n ∧ n ≤ 27) ∨ n = 43 ∨ (47 ≤ n ∧ n ≤ 51) ∨ n = 54 ∨ n = 55 ∨ n = 58 ∨ n = 59) ∨
    (∃ z, n = 13 + zoneNumber z) ∨ ((28 ≤ n ∧ n ≤ 37) ∨ (39 ≤ n ∧ n ≤ 41) ∨ n = 45 ∨ n = 46) ∨
    n = 38 ∨ n = 42 ∨ n = 44 ∨ n = 52 ∨ n = 53 ∨ ∃ x, n = overrideNumber x := by
  by_cases limits : 13 ≤ n ∧ n ≤ 22
  · refine .inr (.inl ?_)
    obtain ⟨low, high⟩ := limits
    obtain rfl | rfl | rfl | rfl | rfl | rfl | rfl | rfl | rfl | rfl : n = 13 ∨ n = 14 ∨ n = 15 ∨ n = 16 ∨ n = 17 ∨ n = 18 ∨
      n = 19 ∨ n = 20 ∨ n = 21 ∨ n = 22 := by omega
    · exact ⟨⟨.left, .cushion⟩, rfl⟩
    · exact ⟨⟨.left, .backrest⟩, rfl⟩
    · exact ⟨⟨.left, .neck⟩, rfl⟩
    · exact ⟨⟨.left, .legRest⟩, rfl⟩
    · exact ⟨⟨.left, .armrest⟩, rfl⟩
    · exact ⟨⟨.right, .cushion⟩, rfl⟩
    · exact ⟨⟨.right, .backrest⟩, rfl⟩
    · exact ⟨⟨.right, .neck⟩, rfl⟩
    · exact ⟨⟨.right, .legRest⟩, rfl⟩
    · exact ⟨⟨.right, .armrest⟩, rfl⟩
  · by_cases left : n = 56
    · exact .inr (.inr (.inr (.inr (.inr (.inr (.inr (.inr ⟨.left, left⟩)))))))
    · by_cases right : n = 57
      · exact .inr (.inr (.inr (.inr (.inr (.inr (.inr (.inr ⟨.right, right⟩)))))))
      · omega

/-- The owners leave the last results and the parameters alone. -/
theorem sameRegisters_parameterWritten (h : n ≤ 59) : s.sameRegisters (parameterWritten n was s) := by
  rcases parameter_cases h with plain | ⟨z, rfl⟩ | current | rfl | rfl | rfl | rfl | rfl | ⟨x, rfl⟩
  · rw [parameterWritten_plain was s plain]
    exact ⟨rfl, rfl⟩
  · rw [parameterWritten_limit]
    exact sameRegisters_limitWritten z s
  · rw [parameterWritten_current was s current]
    exact State.sameRegisters.pass (s := s) ⟨rfl, rfl⟩
  · exact sameRegisters_stepDownTimeWritten s
  · show s.sameRegisters (refreshTimeWritten s)
    unfold refreshTimeWritten
    split <;> exact ⟨rfl, rfl⟩
  · exact State.sameRegisters.pass (s := s) (t := recomputeCeiling s) ⟨rfl, rfl⟩
  · exact ⟨rfl, rfl⟩
  · show s.sameRegisters (parkingWritten s)
    unfold parkingWritten
    split <;> exact ⟨rfl, rfl⟩
  · rw [parameterWritten_override]
    exact sameRegisters_overrideWritten x _ s

end

end Sys2Proof.Machine
end
section
/-! PROOFS. WRITE PARAMETER at the surface limit of a zone and at the step-down time (O29). -/
namespace Sys2Proof.Machine

/-! ## The surface limit (spec/02 R39) -/

theorem setRequest_ungranted (r : Nat) (c : ZoneChannel) : (setRequest r c).ungranted = ({ c with request := r } : ZoneChannel).ungranted := by
  unfold setRequest
  split <;> rfl

/-- A request that does not fall below the grant leaves the window alone. -/
theorem setRequest_above {r : Nat} {c : ZoneChannel} (h : c.grant ≤ r) : setRequest r c = { c with request := r } :=
  if_neg (Nat.not_lt.mpr h)

/-- What a pass hands out at a zone is not of its bystander. -/
theorem bystander_setZone_congr (s : State) (z : ZoneId) {a b : ZoneChannel} (h : a.ungranted = b.ungranted) :
    (s.setZone z a).bystander = (s.setZone z b).bystander := by
  obtain ⟨x, p⟩ := z
  cases x <;> cases p <;> simp [State.setZone, State.bystander, PerSeat.set, Five.set, Five.map, h]

/-- A pass takes in of a zone its request alone. -/
theorem passInput_setZone_congr (s : State) (z : ZoneId) {a b : ZoneChannel} (h : a.request = b.request) :
    (s.setZone z a).passInput = (s.setZone z b).passInput := by
  obtain ⟨x, p⟩ := z
  cases x <;> cases p <;> simp [State.setZone, State.passInput, State.pumpDemand, State.overhead, State.pumpCurrent,
    State.fanCurrent, State.rated, State.param, PerSeat.set, Five.set, Five.map, h]

theorem zoneNumber_le (z : ZoneId) : zoneNumber z ≤ 9 := by
  obtain ⟨x, p⟩ := z
  cases x <;> cases p <;> decide

/-- The control law under a new surface limit. -/
theorem lawFor_putParam (s : State) (z : ZoneId) (v level : Nat) (m : Int) (h : Params.wf s.params = true) :
    (s.putParam (13 + zoneNumber z) v).lawFor z level m =
      controlLaw (s.targetTemp level) (s.baseDuty level) s.gain s.limitDuty v m := by
  have other (k : Nat) (hk : k ≤ 12) : (s.putParam (13 + zoneNumber z) v).param k = s.param k :=
    param_putParam_other s _ k v h (by omega)
  unfold State.lawFor State.targetTemp State.baseDuty State.gain State.limitDuty State.surfaceLimit
  rw [other _ (by omega), other _ (by omega), other 11 (by decide), other 12 (by decide), param_putParam s _ v h]

/-- A zone in closed loop whose surface limit has been written, judged afresh. -/
def State.limitJudged (s : State) (z : ZoneId) (law : Nat × ZoneState) : State :=
  s.setZone z (setRequest law.1 { s.zone z with state := law.2 })

theorem limitWritten_open {s : State} {z : ZoneId} (hh : (s.zone z).state ≠ .heating) (hl : (s.zone z).state ≠ .limit) :
    limitWritten z s = s := by
  refine if_neg fun closed => ?_
  cases e : (s.zone z).state with
  | heating => exact hh e
  | limit => exact hl e
  | off | degraded | fault | standby =>
    rw [e] at closed
    cases closed

theorem limitWritten_closed {s : State} {z : ZoneId} {m : Int} {law : Nat × ZoneState}
    (hc : (s.zone z).state = .heating ∨ (s.zone z).state = .limit) (ht : (s.zone z).temp = some m) (hl : (s.zone z).latch = false)
    (ha : s.active z.seat = true) (hv : (s.level z).value ≠ 0) (law_ : s.lawFor z (s.level z).value m = law) :
    limitWritten z s = if law.2 = (s.zone z).state then s.limitJudged z law else runPass (s.limitJudged z law) := by
  have closed : (s.zone z).state.isClosedLoop = true := by
    rcases hc with e | e <;> rw [e] <;> rfl
  have state : (s.zone z).state ≠ .degraded := by
    rcases hc with e | e <;> rw [e] <;> decide
  have reads := evaluateChannel_reads ha hl hv state
  rw [ht] at reads
  have judged : evaluateZone z s = s.limitJudged z law := by
    unfold evaluateZone
    rw [reads, ← law_]
    rfl
  have now : ((s.limitJudged z law).zone z).state = law.2 := by
    refine (congrArg ZoneChannel.state (State.zone_setZone s z _)).trans ?_
    exact setRequest_state _ _
  unfold limitWritten
  rw [if_pos closed, judged]
  dsimp only
  rw [now]

/-! ## The step-down time (spec/02 R42) -/

/-- A zone's setting and its step-down count. -/
def State.stepCount (s : State) (z : ZoneId) : Setting × Nat × Nat := (s.level z, (s.zone z).minutes, (s.zone z).minuteMs)

theorem stepCount_of_bystander {s t : State} (h : t.bystander = s.bystander) (z : ZoneId) : t.stepCount z = s.stepCount z := by
  have zone := zone_of_bystander h z
  unfold State.stepCount
  rw [level_of_bystander h z, show (t.zone z).minutes = _ from (congrArg ZoneChannel.minutes zone :),
    show (t.zone z).minuteMs = _ from (congrArg ZoneChannel.minuteMs zone :)]
  rfl

/-- What a write of the step-down time `v` makes of a zone's setting and count. -/
def stepCountWritten (v : Nat) (c : Setting × Nat × Nat) : Setting × Nat × Nat :=
  if v = 0 then (c.1, 0, 0)
  else if (c.1.value = 4 ∨ c.1.value = 5) ∧ v ≤ c.2.1 then (⟨c.1.value - 1, .device⟩, 0, 0)
  else c

section

variable (z : ZoneId) (s : State)

theorem bystander_stepZoneDown : (stepZoneDown z s).bystander =
    (s.relevelled z ⟨(s.level z).value - 1, .device⟩ (restartStepDown (s.zone z))).bystander :=
  (bystander_runPass _).trans (bystander_raiseSeat _ _ _ _ _)

theorem stepCount_stepZoneDown : (stepZoneDown z s).stepCount z = (⟨(s.level z).value - 1, .device⟩, 0, 0) := by
  refine (stepCount_of_bystander (bystander_stepZoneDown z s) z).trans ?_
  have kept := relevelled_kept s z ⟨(s.level z).value - 1, .device⟩ (restartStepDown (s.zone z))
  unfold State.stepCount
  rw [relevelled_level, show ZoneChannel.minutes _ = 0 from congrArg (·.2.1) kept,
    show ZoneChannel.minuteMs _ = 0 from congrArg (·.2.2.1) kept]

theorem stepCount_stepZoneDown_other (y : ZoneId) (h : y ≠ z) : (stepZoneDown z s).stepCount y = s.stepCount y := by
  refine (stepCount_of_bystander (bystander_stepZoneDown z s) y).trans ?_
  unfold State.stepCount
  rw [relevelled_level_other s z _ _ y h, relevelled_zone_other s z _ _ y h]

theorem stepCount_stepDownWritten : (stepDownWritten z s).stepCount z = stepCountWritten s.stepDownTime (s.stepCount z) := by
  unfold stepDownWritten stepCountWritten
  by_cases hv : s.stepDownTime = 0
  · rw [if_pos hv, if_pos hv]
    unfold State.stepCount
    rw [State.zone_setZone]
    rfl
  · rw [if_neg hv, if_neg hv]
    by_cases due : ((s.level z).value = 4 ∨ (s.level z).value = 5) ∧ s.stepDownTime ≤ (s.zone z).minutes
    · rw [if_pos ((stepDownDue_eq s z).mpr ⟨due.1, Nat.pos_of_ne_zero hv, due.2⟩)]
      exact (stepCount_stepZoneDown z s).trans (if_pos due).symm
    · rw [if_neg fun e => due (((stepDownDue_eq s z).mp e).imp_right And.right)]
      exact (if_neg due).symm

theorem stepCount_stepDownWritten_other (y : ZoneId) (h : y ≠ z) : (stepDownWritten z s).stepCount y = s.stepCount y := by
  unfold stepDownWritten
  split
  · unfold State.stepCount
    rw [State.zone_setZone_other s z y _ h]
    rfl
  · split
    · exact stepCount_stepZoneDown_other z s y h
    · rfl

end

theorem stepDownTime_of_same {s t : State} (h : s.sameRegisters t) : t.stepDownTime = s.stepDownTime := by
  unfold State.stepDownTime State.param
  rw [h.2]

/-- The zones of a list whose step-down counts a written time acts on, one after another. -/
theorem stepCount_foldl (l : List ZoneId) (nd : l.Nodup) (s : State) (z : ZoneId) :
    (l.foldl (fun u y => stepDownWritten y u) s).stepCount z =
      if z ∈ l then stepCountWritten s.stepDownTime (s.stepCount z) else s.stepCount z := by
  induction l generalizing s with
  | nil => rfl
  | cons y l ih =>
    obtain ⟨fresh, nd⟩ := List.nodup_cons.mp nd
    refine (ih nd (stepDownWritten y s)).trans ?_
    rw [stepDownTime_of_same (sameRegisters_stepDownWritten y s)]
    by_cases e : z = y
    · subst e
      rw [if_neg fresh, if_pos (List.mem_cons_self ..), stepCount_stepDownWritten]
    · rw [stepCount_stepDownWritten_other y s z e]
      by_cases m : z ∈ l
      · rw [if_pos m, if_pos (List.mem_cons_of_mem _ m)]
      · rw [if_neg m, if_neg (by simp [e, m])]

theorem stepCount_stepDownTimeWritten (s : State) (z : ZoneId) :
    (stepDownTimeWritten s).stepCount z = stepCountWritten s.stepDownTime (s.stepCount z) :=
  (stepCount_foldl allZones (nodup_of_sorted allZones_sorted) s z).trans (if_pos (mem_allZones z))

end Sys2Proof.Machine
end
section
/-! PROOFS. The row of WRITE PARAMETER at every number (O29). -/
namespace Sys2Proof.Machine

theorem stepCount_withResults (s : State) (r : PerMaster LastResult) (z : ZoneId) : (s.withResults r).stepCount z = s.stepCount z := rfl

theorem overrideNumber_bounds (x : Seat) : 54 < overrideNumber x ∧ overrideNumber x ≤ 59 := by cases x <;> decide

/-- A write command, and what the reports it leads to leave of it. -/
theorem taken_write_followed {f : State → State} {s v : State} {m : Master} {code : Byte} {y : Option Seat} {c : ResultCode}
    (h : s.onBus) (e : f { s with bus := .idle } = recordResult m code y (v, c)) (hv : v.results = s.results) :
    ∃ t, taken (writeRow f) s = .next t ∧ Followed (v.withResults (s.results.set m ⟨c, some code, y⟩)) t := by
  obtain ⟨t, ht, -, followed⟩ := true_keep.taken_write_law (fun _ _ _ => trivial) h e (.same v) hv trivial
  exact ⟨t, ht, followed⟩

section

variable {s : State} {m : Master} {number : Byte} {value : Half} {n v : Nat} {code : ResultCode}

/-- The part with the bus idle and the value stored, before its owner acts. -/
def State.parameterPut (s : State) (n v : Nat) : State := { s with bus := .idle }.putParam n v

theorem takeWriteParameter_eq (hw : s.mayWrite m .config = true) (hn : n ≤ 59) (en : number.toNat = n)
    (ev : nearestAllowed (paramRange n) value.toNat = v) (ec : (if v = value.toNat then ResultCode.ok else .clamped) = code) :
    takeWriteParameter m number value { s with bus := .idle } =
      recordResult m 0x40 none (parameterWritten n s.override (s.parameterPut n v), code) := by
  subst en ev ec
  refine congrArg (recordResult m 0x40 none) ((if_pos hw).trans (if_neg (Nat.not_lt.mpr hn)))

/-- What is assumed of a row of WRITE PARAMETER: the owner of number `n` acts on the stored value `v`. -/
structure ParameterRow (s : State) (cmd : Instr) (m : Master) (n v : Nat) (code : ResultCode) : Prop where
  bus : s.onBus
  params : Params.wf s.params = true
  number : n ≤ 59
  row : ∃ f, exec cmd s = taken (writeRow f) s ∧
    f { s with bus := .idle } = recordResult m 0x40 none (parameterWritten n s.override (s.parameterPut n v), code)

end

namespace ParameterRow

variable {s : State} {cmd : Instr} {m : Master} {n v : Nat} {code : ResultCode} (R : ParameterRow s cmd m n v code)
include R

theorem param : (s.parameterPut n v).param n = v := param_putParam _ n v R.params

theorem param_other (k : Nat) (hk : k ≠ n) : (s.parameterPut n v).param k = s.param k := param_putParam_other _ n k v R.params hk

/-- An owner that acts without a report. -/
theorem acts {u : State} (e : parameterWritten n s.override (s.parameterPut n v) = u) (hr : u.reports = s.reports)
    (hs : u.releases = s.releases) : exec cmd s = .next (recordResult m 0x40 none (u, code)) := by
  obtain ⟨f, row, effect⟩ := R.row
  rw [e] at effect
  exact row.trans (taken_write_exact R.bus effect hr hs)

/-- An owner that does nothing at the write. -/
theorem plain (e : parameterWritten n s.override (s.parameterPut n v) = s.parameterPut n v) :
    exec cmd s = .next ((s.recorded m 0x40 none code).putParam n v) := R.acts e rfl rfl

/-- An owner that starts a pass. -/
theorem passes {u : State} (e : parameterWritten n s.override (s.parameterPut n v) = runPass u) (ha : AirAlike s u)
    (hu : u.results = s.results) :
    ∃ t, exec cmd s = .next t ∧ PassedTo s (u.withResults (s.results.set m ⟨code, some 0x40, none⟩)) t := by
  obtain ⟨f, row, effect⟩ := R.row
  rw [e] at effect
  rw [row]
  exact taken_write_pass R.bus effect ha hu

/-- What every owner leaves. -/
theorem followed : ∃ t, exec cmd s = .next t ∧
    Followed ((parameterWritten n s.override (s.parameterPut n v)).withResults (s.results.set m ⟨code, some 0x40, none⟩)) t := by
  obtain ⟨f, row, effect⟩ := R.row
  rw [row]
  exact taken_write_followed R.bus effect (sameRegisters_parameterWritten s.override (s.parameterPut n v) R.number).1

/-- The value, the last result and the other parameters after the write (spec/09 R181). -/
theorem stores : ∃ t, exec cmd s = .next t ∧ t.results = s.results.set m ⟨code, some 0x40, none⟩ ∧ t.param n = v ∧
    ∀ k, k ≠ n → t.param k = s.param k := by
  obtain ⟨t, ht, followed⟩ := R.followed
  have params (k : Nat) : t.param k = (s.parameterPut n v).param k := by
    refine (param_of_bystander followed.bystander k).trans ?_
    unfold State.param
    exact congrArg (Table.get _ · k) (sameRegisters_parameterWritten s.override (s.parameterPut n v) R.number).2
  exact ⟨t, ht, results_of_bystander followed.bystander, (params n).trans R.param, fun k hk => (params k).trans (R.param_other k hk)⟩

/-- A pass over the state with the value stored (spec/02 R40, spec/03 R55, spec/04 R68). -/
theorem passes_over {u : State} (e : parameterWritten n s.override (s.parameterPut n v) = runPass u) (ha : AirAlike s u)
    (hu : u.results = s.results) {r : State} (hr : r = u.withResults (s.results.set m ⟨code, some 0x40, none⟩)) :
    ∃ t, exec cmd s = .next t ∧ t.bystander = r.bystander ∧ (s.airQuiet = true → t.budget.result = allocate r.passInput) := by
  obtain ⟨t, ht, passed⟩ := R.passes e ha hu
  subst hr
  exact ⟨t, ht, passed.followed.bystander, fun hq => by rw [passed.quiet hq]; exact (budget_passCore _).1⟩

/-! ## The owners' clauses -/

theorem limit {z : ZoneId} (hn : n = 13 + zoneNumber z) {m' : Int} {law : Nat × ZoneState}
    (hc : (s.zone z).state = .heating ∨ (s.zone z).state = .limit) (ht : (s.zone z).temp = some m') (hl : (s.zone z).latch = false)
    (ha : s.active z.seat = true) (hv : (s.level z).value ≠ 0)
    (hlaw : controlLaw (s.targetTemp (s.level z).value) (s.baseDuty (s.level z).value) s.gain s.limitDuty v m' = law)
    {r : State} (hr : r = (s.recorded m 0x40 none code).putParam n v) {judged : ZoneChannel}
    (hj : judged = { s.zone z with request := law.1, state := law.2 }) :
    ∃ t, exec cmd s = .next t ∧ t.bystander = (r.setZone z judged).bystander ∧
      (law.1 < (s.zone z).grant → (t.zone z).grant ≤ law.1) ∧
      (law.2 = (s.zone z).state → t.budget = s.budget ∧ ((s.zone z).grant ≤ law.1 → exec cmd s = .next (r.setZone z judged))) ∧
      (law.2 ≠ (s.zone z).state → s.airQuiet = true → t.budget.result = allocate (r.setZone z judged).passInput) := by
  subst hr hj
  have lawFor : (s.parameterPut n v).lawFor z (s.level z).value m' = law := by
    rw [hn, ← hlaw]
    exact lawFor_putParam { s with bus := .idle } z v _ m' R.params
  have owner : parameterWritten n s.override (s.parameterPut n v) = limitWritten z (s.parameterPut n v) := by
    rw [hn]
    exact parameterWritten_limit _ _ z
  have written := owner.trans (limitWritten_closed (s := s.parameterPut n v) hc ht hl ha hv lawFor)
  let asked := setRequest law.1 { s.zone z with state := law.2 }
  have ungranted : asked.ungranted = ({ s.zone z with request := law.1, state := law.2 } : ZoneChannel).ungranted :=
    setRequest_ungranted _ _
  obtain ⟨request, grant⟩ := setRequest_spec law.1 { s.zone z with state := law.2 }
  let r := (s.recorded m 0x40 none code).putParam n v
  have same := bystander_setZone_congr r z ungranted
  by_cases stays : law.2 = (s.zone z).state
  · have row := R.acts (written.trans (if_pos stays)) rfl rfl
    refine ⟨r.setZone z asked, row, same, fun _ => ?_, fun _ => ⟨rfl, fun above => ?_⟩, fun moves => absurd stays moves⟩
    · rw [State.zone_setZone, grant]
      exact Nat.min_le_right _ _
    · refine row.trans (congrArg (fun c => Host.Outcome.next (r.setZone z c)) ?_)
      exact setRequest_above above
  · obtain ⟨t, ht, passed⟩ := R.passes (written.trans (if_neg stays)) ⟨rfl, rfl, rfl⟩ rfl
    have bystander : t.bystander = _ := passed.followed.bystander.trans same
    refine ⟨t, ht, bystander, fun _ => ?_, fun e => absurd e stays, fun _ hq => ?_⟩
    · have within := passed.followed.within z ?_
      · have zone := zone_of_bystander bystander z
        rw [State.zone_setZone] at zone
        exact Nat.le_trans within (Nat.le_of_eq (congrArg ZoneChannel.request zone :))
      · show ((r.setZone z asked).zone z).grant ≤ ((r.setZone z asked).zone z).request
        rw [State.zone_setZone, grant, request]
        exact Nat.min_le_right _ _
    · rw [passed.quiet hq]
      exact (budget_passCore _).1.trans (congrArg allocate (passInput_setZone_congr r z request))

theorem override_eq {x : Seat} (hn : n = overrideNumber x) : (s.parameterPut n v).override x = decide (v = 1) := by
  unfold State.override
  rw [← hn, R.param]
  exact (Bool.beq_eq_decide_eq v 1)

theorem override_same {x : Seat} (hn : n = overrideNumber x) (h : s.override x = decide (v = 1)) :
    exec cmd s = .next ((s.recorded m 0x40 none code).putParam n v) := by
  refine R.plain ?_
  have now := R.override_eq hn
  subst hn
  rw [parameterWritten_override]
  exact if_pos (now.trans h.symm)

theorem override_on {x : Seat} (hn : n = overrideNumber x) (off : s.override x = false) (hv : v = 1) :
    ((s.seat x).occupancy = .occupied → exec cmd s = .next ((s.recorded m 0x40 none code).putParam n v)) ∧
      ∃ t, exec cmd s = .next t ∧ (t.seat x).occupancy = .occupied := by
  have now : (s.parameterPut n v).override x = true := (R.override_eq hn).trans (decide_eq_true hv)
  have owner : parameterWritten n s.override (s.parameterPut n v) = enterOccupied x (s.parameterPut n v) := by
    refine (congrArg (parameterWritten · _ _) hn).trans ?_
    rw [parameterWritten_override]
    exact (if_neg (by rw [now, off]; decide)).trans (if_pos now)
  refine ⟨fun ho => R.plain (owner.trans ?_), ?_⟩
  · unfold enterOccupied
    rw [show ((s.parameterPut n v).seat x).occupancy = _ from ho] <;> rfl
  · obtain ⟨t, ht, followed⟩ := R.followed
    rw [owner] at followed
    exact ⟨t, ht, (occupancy_of_bystander followed.bystander x).trans (occupancy_enterOccupied x _)⟩

theorem override_off {x : Seat} (hn : n = overrideNumber x) (on : s.override x = true) (hv : v = 0) :
    parameterWritten n s.override (s.parameterPut n v) =
      if (s.seat x).occupancy = .occupied ∧ (s.seat x).debounced = false then enterVacating x (s.parameterPut n v)
      else s.parameterPut n v := by
  have now : (s.parameterPut n v).override x = false := (R.override_eq hn).trans (decide_eq_false (by omega))
  refine (congrArg (parameterWritten · _ _) hn).trans ?_
  rw [parameterWritten_override]
  exact (if_neg (by rw [now, on]; decide)).trans (if_neg (by rw [now]; decide))

theorem stepDownTime (hn : n = 38) : ∃ t, exec cmd s = .next t ∧ ∀ z, t.stepCount z = stepCountWritten v (s.stepCount z) := by
  obtain ⟨t, ht, followed⟩ := R.followed
  have owner : parameterWritten n s.override (s.parameterPut n v) = stepDownTimeWritten (s.parameterPut n v) := by
    rw [hn]
    rfl
  rw [owner] at followed
  refine ⟨t, ht, fun z => (stepCount_of_bystander followed.bystander z).trans ((stepCount_withResults _ _ z).trans ?_)⟩
  refine (stepCount_stepDownTimeWritten (s.parameterPut n v) z).trans ?_
  have time : (s.parameterPut n v).stepDownTime = v := by
    unfold State.stepDownTime
    rw [← hn, R.param]
  rw [time]
  rfl

end ParameterRow

/-- Settles O29: the stored value, and what each owner does at the write. -/
theorem writeParameterStores : Obligations.WriteParameterStores := by
  intro m number value s h hs hw n v code r cmd
  have refused (hn : 59 < n) : exec cmd s = .next (s.recorded m 0x40 none .badField) :=
    taken_refused h (congrArg (recordResult m 0x40 none) ((if_pos hw).trans (if_pos hn)))
  have row (hn : n ≤ 59) : ParameterRow s cmd m n v code :=
    ⟨h, hs.2.2, hn, takeWriteParameter m number value, rfl, takeWriteParameter_eq hw hn rfl rfl rfl⟩
  refine ⟨refused, fun hn => (row hn).stores, fun hn => ?_, fun z hn => ?_, fun hn => ?_, fun hn => ?_, fun hn => ?_, fun hn => ?_,
    fun hn => ?_, fun x hn => ?_, fun hn => ?_⟩
  · exact (row (by omega)).plain (parameterWritten_plain _ _ hn)
  · have R := row (by have := zoneNumber_le z; omega)
    refine ⟨fun hh hl => R.plain ?_, fun temp hc ht hl ha hv => R.limit hn hc ht hl ha hv rfl rfl rfl⟩
    rw [hn, parameterWritten_limit]
    exact limitWritten_open hh hl
  · have R := row (by omega)
    have time : (s.parameterPut n v).refreshTime = v := by
      unfold State.refreshTime
      rw [← hn, R.param]
    have owner : parameterWritten n s.override (s.parameterPut n v) = refreshTimeWritten (s.parameterPut n v) := by
      rw [hn]
      rfl
    unfold refreshTimeWritten at owner
    rw [time] at owner
    by_cases hv : v = 0
    · rw [if_pos hv] at owner ⊢
      exact R.acts owner rfl rfl
    · rw [if_neg hv] at owner ⊢
      exact R.plain owner
  · have R := row (by omega)
    have limit : (s.parameterPut n v).rotationLimit = v := by
      unfold State.rotationLimit
      rw [← hn, R.param]
    have owner : parameterWritten n s.override (s.parameterPut n v) = rotationLimitWritten (s.parameterPut n v) := by
      rw [hn]
      rfl
    unfold rotationLimitWritten at owner
    rw [limit] at owner
    exact R.acts owner rfl rfl
  · have R := row (by omega)
    have bound : v ≤ 1 := by
      show nearestAllowed (paramRange n) value.toNat ≤ 1
      rw [hn]
      exact Nat.max_le.mpr ⟨Nat.zero_le 1, Nat.min_le_right _ 1⟩
    have parks : (s.parameterPut n v).parksNowhere = decide (v ≠ 0) := by
      unfold State.parksNowhere
      rw [← hn, R.param, Bool.beq_eq_decide_eq, decide_eq_decide]
      omega
    have owner : parameterWritten n s.override (s.parameterPut n v) = parkingWritten (s.parameterPut n v) := by
      rw [hn]
      rfl
    unfold parkingWritten at owner
    rw [parks] at owner
    by_cases hv : v = 0
    · rw [if_neg (by simp [hv])] at owner
      rw [if_pos hv]
      exact R.acts owner rfl rfl
    · rw [if_pos (by simp [hv])] at owner
      rw [if_neg hv]
      exact R.plain owner
  · exact (row (by omega)).passes_over (parameterWritten_current _ _ hn) ⟨rfl, rfl, rfl⟩ rfl rfl
  · have R := row (by omega)
    have owner : parameterWritten n s.override (s.parameterPut n v) = runPass (recomputeCeiling (s.parameterPut n v)) := by
      rw [hn]
      rfl
    intro capped
    obtain ⟨t, ht, same, result⟩ := R.passes_over owner ⟨rfl, rfl, rfl⟩ rfl (r := capped) rfl
    exact ⟨t, ht, cEff_of_bystander same, same, result⟩
  · have R := row (by have := overrideNumber_bounds x; omega)
    refine ⟨R.override_same hn, R.override_on hn, fun on hv => ⟨fun stays => R.plain ?_, fun ho hd => ?_⟩⟩
    · refine (R.override_off hn on hv).trans (if_neg fun leaves => ?_)
      exact stays.elim (fun e => e leaves.1) fun e => by
        rw [leaves.2] at e
        cases e
    · have delay : (s.parameterPut n v).vacancyDelay = s.vacancyDelay :=
        congrArg (1000 * ·) (R.param_other 54 (by have := overrideNumber_bounds x; omega))
      have owner := (R.override_off hn on hv).trans (if_pos ⟨ho, hd⟩)
      unfold enterVacating at owner
      rw [delay] at owner
      obtain ⟨t, ht, same, -⟩ := R.passes_over owner ⟨rfl, rfl, rfl⟩ rfl rfl
      exact ⟨t, ht, same⟩
  · obtain ⟨t, ht, count⟩ := (row (by omega)).stepDownTime hn
    refine ⟨t, ht, fun hv z => ?_, fun hv z => ?_⟩
    · have counted := (count z).trans (if_pos hv)
      exact ⟨(congrArg (·.2.1) counted :), (congrArg (·.2.2) counted :), (congrArg (·.1) counted :)⟩
    · have counted := (count z).trans (if_neg hv)
      by_cases due : ((s.level z).value = 4 ∨ (s.level z).value = 5) ∧ v ≤ (s.zone z).minutes
      · have stepped := counted.trans (if_pos due)
        rw [if_pos due]
        exact ⟨(congrArg (·.1) stepped :), (congrArg (·.2.1) stepped :)⟩
      · have kept := counted.trans (if_neg due)
        rw [if_neg due]
        exact ⟨(congrArg (·.1) kept :), (congrArg (·.2.1) kept :)⟩

end Sys2Proof.Machine
end
